-- ==== Sys2Proof/Word.lean ====
section
/-! DEFINITION. The plain value types of the gf_modular_arithmetic_engine: bytes and command words, the field
GF(2^255-19) of the field unit, the integers modulo the group order of the scalar unit, and affine points. -/

namespace Sys2Proof

/-- A byte of DMEM (20_memory.md R100). -/
abbrev Byte := BitVec 8

/-- A command word and a host word, both 32 bits (20_memory.md R100, 30_encoding.md R140). -/
abbrev Word := BitVec 32

/-- The field prime p = 2^255 - 19 (00_scope.md R9). -/
abbrev fieldPrime : Nat :=
  57896044618658097711785492504343953926634992332820282019728792003956564819949

/-- The group order l = 2^252 + 27742317777372353535851937790883648493 (00_scope.md R11). -/
abbrev groupOrder : Nat :=
  7237005577332262213973186563042994240857116359379907606001950938285454250989

/-- A field value: an element of GF(p), held as its canonical representative (00_scope.md R9, 10_state.md R42).
The operations `+`, `-`, `*` on `Fin` are those modulo `fieldPrime`. -/
abbrev Fe := Fin fieldPrime

/-- A scalar value: an integer s with 0 <= s < l (10_state.md R43). -/
abbrev Scalar := Fin groupOrder

/-- An affine point (x, y), the architectural value of a written point register (10_state.md R44).  That it lies on
the curve is no part of the type: it is the invariant `Safety.PointsOnCurve`. -/
structure Pt where
  x : Fe
  y : Fe
deriving DecidableEq, Repr

end Sys2Proof
end

