-- ==== Sys2Proof/Config.lean ====
section
/-! DEFINITION. What an implementation or a platform fixes: the sizes of 00_scope.md R6, the platform's open
parameters, and the FREE VALUES.  A free value (`draw` of 00_scope.md R8) is an opaque constant: nothing can evaluate
it or prove a value of it, so a claim about it holds for every value the environment may choose. -/

namespace Sys2Proof.Config

/-- IMEM_WORDS of 00_scope.md R6. -/
abbrev imemWords : Nat := 256

/-- DMEM_SLOTS of 00_scope.md R6. -/
abbrev dmemSlots : Nat := 64

/-- SLOT_BYTES of 00_scope.md R6. -/
abbrev slotBytes : Nat := 32

/-- The bytes of DMEM: 64 slots of 32 bytes (10_state.md R73). -/
abbrev dmemBytes : Nat := 2048

/-- MMIO_SIZE of 00_scope.md R6. -/
abbrev mmioSize : Nat := 4096

/-- ID_VALUE of 00_scope.md R6, the contents of the ID register (10_state.md R61). -/
abbrev idValue : Word := 0x25519001

/-- The 4096-byte page of the host's address space that holds the window.  OPEN platform parameter (20_memory.md R101,
93_implementation_defined.md U19); log entry 6. -/
opaque mmioPage : Nat

/-- MMIO_BASE, aligned to 4096 (20_memory.md R101). -/
def mmioBase : Nat := mmioSize * mmioPage

/-- IRQ_ROUTING: the number of the platform interrupt the line drives.  OPEN platform parameter (60_exceptions.md R380,
93_implementation_defined.md U20); log entry 6. -/
opaque irqRouting : Nat

/-- The `n`-th draw of a run, from the set [0, 2^w) (00_scope.md R8); log entry 2. -/
opaque draw (w n : Nat) : BitVec w

/-- The `n`-th draw of a run, from GF(p) (41_field.md R212); log entry 2. -/
opaque drawField (n : Nat) : Fe

/-- What DMEM byte `a` holds after hard reset number `e` until it is written: draw([0, 256)), made once at the reset
(70_reset_and_hazards.md R410); log entry 3. -/
opaque powerOnByte (e a : Nat) : Byte

/-- What IMEM word `k` holds after hard reset number `e` until it is written: draw([0, 2^32)), made once at the reset
(70_reset_and_hazards.md R410); log entry 3. -/
opaque powerOnWord (e k : Nat) : Word

end Sys2Proof.Config
end

