-- ==== Sys2Proof/Syntax.lean ====
section
/-! DEFINITION. The commands: one constructor for each row of the opcode table (30_encoding.md R151), with the fields
that row uses, in the order of the word's fields RD, RA, RB, RC, IMM8 (30_encoding.md R140). -/

namespace Sys2Proof

/-- An index into the field register file F0..F15 (10_state.md R42, 30_encoding.md R144). -/
abbrev FReg := Fin 16

/-- An index into the scalar register file S0..S15 (10_state.md R43). -/
abbrev SReg := Fin 16

/-- An index into the point register file G0..G15 (10_state.md R44). -/
abbrev GReg := Fin 16

/-- An index into the predicate register file B0..B15 (10_state.md R46). -/
abbrev BReg := Fin 16

/-- The 51 commands.  `v` is the public-input hint, bit V of the word (30_encoding.md R143); `slot` is a DMEM slot
number and `n` a count, both the unsigned IMM8 (30_encoding.md R145). -/
inductive Instr where
  /-- NOP: `nop` (40_control.md R175). -/
  | nop (v : Bool)
  /-- HALT: `halt` (40_control.md R176). -/
  | halt (v : Bool)
  /-- FUNPACK: `funpack fd, [slot]` (41_field.md R200). -/
  | funpack (v : Bool) (rd : FReg) (slot : BitVec 8)
  /-- FPACK: `fpack [slot], fa` (41_field.md R201). -/
  | fpack (v : Bool) (ra : FReg) (slot : BitVec 8)
  /-- FADD: `fadd fd, fa, fb` (41_field.md R202). -/
  | fadd (v : Bool) (rd ra rb : FReg)
  /-- FSUB: `fsub fd, fa, fb` (41_field.md R203). -/
  | fsub (v : Bool) (rd ra rb : FReg)
  /-- FNEG: `fneg fd, fa` (41_field.md R204). -/
  | fneg (v : Bool) (rd ra : FReg)
  /-- FDBL: `fdbl fd, fa` (41_field.md R205). -/
  | fdbl (v : Bool) (rd ra : FReg)
  /-- FTRPL: `ftrpl fd, fa` (41_field.md R206). -/
  | ftrpl (v : Bool) (rd ra : FReg)
  /-- FMUL: `fmul fd, fa, fb` (41_field.md R207). -/
  | fmul (v : Bool) (rd ra rb : FReg)
  /-- FSQR: `fsqr fd, fa` (41_field.md R208). -/
  | fsqr (v : Bool) (rd ra : FReg)
  /-- FSQR2: `fsqr2 fd, fa` (41_field.md R209). -/
  | fsqr2 (v : Bool) (rd ra : FReg)
  /-- FINV: `finv fd, fa` (41_field.md R210). -/
  | finv (v : Bool) (rd ra : FReg)
  /-- FPOW2523: `fpow2523 fd, fa` (41_field.md R211). -/
  | fpow2523 (v : Bool) (rd ra : FReg)
  /-- FINVSQRT: `finvsqrt fd, fa` (41_field.md R212). -/
  | finvsqrt (v : Bool) (rd ra : FReg)
  /-- FSQRT: `fsqrt fd, fa` (41_field.md R213). -/
  | fsqrt (v : Bool) (rd ra : FReg)
  /-- FINVSQRTI: `finvsqrti fd, bc, fa` (41_field.md R214). -/
  | finvsqrti (v : Bool) (rd ra : FReg) (rc : BReg)
  /-- FSQRTI: `fsqrti fd, bc, fa` (41_field.md R215). -/
  | fsqrti (v : Bool) (rd ra : FReg) (rc : BReg)
  /-- FISZERO: `fiszero bd, fa` (41_field.md R216). -/
  | fiszero (v : Bool) (rd : BReg) (ra : FReg)
  /-- FISONE: `fisone bd, fa` (41_field.md R217). -/
  | fisone (v : Bool) (rd : BReg) (ra : FReg)
  /-- FISNEG: `fisneg bd, fa` (41_field.md R218). -/
  | fisneg (v : Bool) (rd : BReg) (ra : FReg)
  /-- FISEQ: `fiseq bd, fa, fb` (41_field.md R219). -/
  | fiseq (v : Bool) (rd : BReg) (ra rb : FReg)
  /-- FCMOV: `fcmov fd, fa, bc` (41_field.md R220). -/
  | fcmov (v : Bool) (rd ra : FReg) (rc : BReg)
  /-- FABS: `fabs fd, fa` (41_field.md R221). -/
  | fabs (v : Bool) (rd ra : FReg)
  /-- SUNPACK: `sunpack sd, [slot]` (42_scalar.md R272). -/
  | sunpack (v : Bool) (rd : SReg) (slot : BitVec 8)
  /-- SUNPACK64: `sunpack64 sd, [slot]` (42_scalar.md R273). -/
  | sunpack64 (v : Bool) (rd : SReg) (slot : BitVec 8)
  /-- SPACK: `spack [slot], sa` (42_scalar.md R274). -/
  | spack (v : Bool) (ra : SReg) (slot : BitVec 8)
  /-- SADD: `sadd sd, sa, sb` (42_scalar.md R275). -/
  | sadd (v : Bool) (rd ra rb : SReg)
  /-- SSUB: `ssub sd, sa, sb` (42_scalar.md R276). -/
  | ssub (v : Bool) (rd ra rb : SReg)
  /-- SNEG: `sneg sd, sa` (42_scalar.md R277). -/
  | sneg (v : Bool) (rd ra : SReg)
  /-- SMUL: `smul sd, sa, sb` (42_scalar.md R278). -/
  | smul (v : Bool) (rd ra rb : SReg)
  /-- SSQR: `ssqr sd, sa` (42_scalar.md R279). -/
  | ssqr (v : Bool) (rd ra : SReg)
  /-- SINV: `sinv sd, sa` (42_scalar.md R280). -/
  | sinv (v : Bool) (rd ra : SReg)
  /-- SISZERO: `siszero bd, sa` (42_scalar.md R281). -/
  | siszero (v : Bool) (rd : BReg) (ra : SReg)
  /-- SISONE: `sisone bd, sa` (42_scalar.md R282). -/
  | sisone (v : Bool) (rd : BReg) (ra : SReg)
  /-- SEQ: `seq bd, sa, sb` (42_scalar.md R283). -/
  | seq (v : Bool) (rd : BReg) (ra rb : SReg)
  /-- SCMOV: `scmov sd, sa, bc` (42_scalar.md R284). -/
  | scmov (v : Bool) (rd ra : SReg) (rc : BReg)
  /-- GUNPACK: `gunpack gd, bc, [slot]` (43_group.md R332). -/
  | gunpack (v : Bool) (rd : GReg) (rc : BReg) (slot : BitVec 8)
  /-- GPACK: `gpack [slot], ga` (43_group.md R333). -/
  | gpack (v : Bool) (ra : GReg) (slot : BitVec 8)
  /-- GADD: `gadd gd, ga, gb` (43_group.md R334). -/
  | gadd (v : Bool) (rd ra rb : GReg)
  /-- GDBL: `gdbl gd, ga` (43_group.md R335). -/
  | gdbl (v : Bool) (rd ra : GReg)
  /-- GNEG: `gneg gd, ga` (43_group.md R336). -/
  | gneg (v : Bool) (rd ra : GReg)
  /-- GSMUL: `gsmul gd, ga, sb` (43_group.md R337). -/
  | gsmul (v : Bool) (rd ra : GReg) (rb : SReg)
  /-- GSMULB: `gsmulb gd, sb` (43_group.md R338). -/
  | gsmulb (v : Bool) (rd : GReg) (rb : SReg)
  /-- GMSM: `gmsm gd, ga, sb, n` (43_group.md R339). -/
  | gmsm (v : Bool) (rd ra : GReg) (rb : SReg) (n : BitVec 8)
  /-- GEQ: `geq bd, ga, gb` (43_group.md R340). -/
  | geq (v : Bool) (rd : BReg) (ra rb : GReg)
  /-- GISNEUTRAL: `gisneutral bd, ga` (43_group.md R341). -/
  | gisneutral (v : Bool) (rd : BReg) (ra : GReg)
  /-- GNEUTRAL: `gneutral gd` (43_group.md R342). -/
  | gneutral (v : Bool) (rd : GReg)
  /-- GBASE: `gbase gd` (43_group.md R343). -/
  | gbase (v : Bool) (rd : GReg)
  /-- GELLIGATOR: `gelligator gd, fa` (43_group.md R344). -/
  | gelligator (v : Bool) (rd : GReg) (ra : FReg)
  /-- GCMOV: `gcmov gd, ga, bc` (43_group.md R345). -/
  | gcmov (v : Bool) (rd ra : GReg) (rc : BReg)
deriving DecidableEq, Repr

end Sys2Proof
end

