-- ==== Sys2Proof/WellFormed.lean ====
section
/-! DEFINITION. Which commands are well formed: the register fields are 4-bit indices by their type, so what is left to
check is that an immediate names what exists (30_encoding.md R146, R147).  An ill-formed command still has an encoding and
decodes; executing it raises the error RANGE. -/

namespace Sys2Proof

/-- A slot immediate names an existing DMEM slot (30_encoding.md R146). -/
def wfSlot (slot : BitVec 8) : Bool := slot.toNat ≤ 63

/-- A slot-pair immediate names two existing DMEM slots (30_encoding.md R146). -/
def wfSlotPair (slot : BitVec 8) : Bool := slot.toNat ≤ 62

/-- A count immediate of GMSM, with its first point and scalar registers (30_encoding.md R147). -/
def wfCount (ra : GReg) (rb : SReg) (n : BitVec 8) : Bool :=
  1 ≤ n.toNat && ra.val + n.toNat ≤ 16 && rb.val + n.toNat ≤ 16

/-- A command's immediate names what exists. -/
def wellFormed : Instr → Bool
  | .nop _ => true
  | .halt _ => true
  | .funpack _ _ slot => wfSlot slot
  | .fpack _ _ slot => wfSlot slot
  | .fadd _ _ _ _ => true
  | .fsub _ _ _ _ => true
  | .fneg _ _ _ => true
  | .fdbl _ _ _ => true
  | .ftrpl _ _ _ => true
  | .fmul _ _ _ _ => true
  | .fsqr _ _ _ => true
  | .fsqr2 _ _ _ => true
  | .finv _ _ _ => true
  | .fpow2523 _ _ _ => true
  | .finvsqrt _ _ _ => true
  | .fsqrt _ _ _ => true
  | .finvsqrti _ _ _ _ => true
  | .fsqrti _ _ _ _ => true
  | .fiszero _ _ _ => true
  | .fisone _ _ _ => true
  | .fisneg _ _ _ => true
  | .fiseq _ _ _ _ => true
  | .fcmov _ _ _ _ => true
  | .fabs _ _ _ => true
  | .sunpack _ _ slot => wfSlot slot
  | .sunpack64 _ _ slot => wfSlotPair slot
  | .spack _ _ slot => wfSlot slot
  | .sadd _ _ _ _ => true
  | .ssub _ _ _ _ => true
  | .sneg _ _ _ => true
  | .smul _ _ _ _ => true
  | .ssqr _ _ _ => true
  | .sinv _ _ _ => true
  | .siszero _ _ _ => true
  | .sisone _ _ _ => true
  | .seq _ _ _ _ => true
  | .scmov _ _ _ _ => true
  | .gunpack _ _ _ slot => wfSlot slot
  | .gpack _ _ slot => wfSlot slot
  | .gadd _ _ _ _ => true
  | .gdbl _ _ _ => true
  | .gneg _ _ _ => true
  | .gsmul _ _ _ _ => true
  | .gsmulb _ _ _ => true
  | .gmsm _ _ ra rb n => wfCount ra rb n
  | .geq _ _ _ _ => true
  | .gisneutral _ _ _ => true
  | .gneutral _ _ => true
  | .gbase _ _ => true
  | .gelligator _ _ _ => true
  | .gcmov _ _ _ _ => true

end Sys2Proof
end

