-- ==== Sys2Proof/Decode.lean ====
section
/-! DEFINITION. The command encoding (30_encoding.md): the fields of a word, the opcode table, the decoder, which is
total and rejects by name, and after it the encoder. -/

namespace Sys2Proof

/-- The fields of format R (30_encoding.md R140).  An unused field is 0. -/
structure Fields where
  opc : BitVec 7
  v : Bool := false
  rd : Fin 16 := 0
  ra : Fin 16 := 0
  rb : Fin 16 := 0
  rc : Fin 16 := 0
  imm : BitVec 8 := 0
deriving DecidableEq, Repr

/-- Field extraction (30_encoding.md R140): OPC[31:25], V[24], RD[23:20], RA[19:16], RB[15:12], RC[11:8], IMM8[7:0]. -/
def fieldsOf (w : Word) : Fields :=
  { opc := BitVec.ofNat 7 (w.toNat / 2 ^ 25)
    v := w.toNat / 2 ^ 24 % 2 == 1
    rd := Fin.ofNat 16 (w.toNat / 2 ^ 20)
    ra := Fin.ofNat 16 (w.toNat / 2 ^ 16)
    rb := Fin.ofNat 16 (w.toNat / 2 ^ 12)
    rc := Fin.ofNat 16 (w.toNat / 2 ^ 8)
    imm := BitVec.ofNat 8 w.toNat }

/-- The integer of a word, as 30_encoding.md R140 sums it:
word = OPC*2^25 + V*2^24 + RD*2^20 + RA*2^16 + RB*2^12 + RC*2^8 + IMM8. -/
def wordOf (f : Fields) : Word :=
  BitVec.ofNat 32 (f.opc.toNat * 2 ^ 25 + f.v.toNat * 2 ^ 24 + f.rd.val * 2 ^ 20 + f.ra.val * 2 ^ 16
    + f.rb.val * 2 ^ 12 + f.rc.val * 2 ^ 8 + f.imm.toNat)

/-- Which of the fields RD, RA, RB, RC and IMM8 a row uses.  V is used by every row (30_encoding.md R143), OPC
selects the row. -/
structure Uses where
  rd : Bool := false
  ra : Bool := false
  rb : Bool := false
  rc : Bool := false
  imm : Bool := false
deriving DecidableEq, Repr

/-- A row of the opcode table: its fixed bits as the table writes them, which fields it uses, and the command its
fields stand for (30_encoding.md R151). -/
structure Row where
  mnemonic : String
  opc : BitVec 7
  matchBits : Word
  mask : Word
  uses : Uses
  build : Fields → Instr

/-- The rows of the control commands (30_encoding.md R151). -/
def controlRows : List Row := [
  { mnemonic := "NOP", opc := 0x00, matchBits := 0x00000000, mask := 0xFEFFFFFF,
    uses := { }, build := fun f => .nop f.v },
  { mnemonic := "HALT", opc := 0x01, matchBits := 0x02000000, mask := 0xFEFFFFFF,
    uses := { }, build := fun f => .halt f.v }]

/-- The rows of the field commands (30_encoding.md R151). -/
def fieldRows : List Row := [
  { mnemonic := "FUNPACK", opc := 0x10, matchBits := 0x20000000, mask := 0xFE0FFF00,
    uses := { rd := true, imm := true }, build := fun f => .funpack f.v f.rd f.imm },
  { mnemonic := "FPACK", opc := 0x11, matchBits := 0x22000000, mask := 0xFEF0FF00,
    uses := { ra := true, imm := true }, build := fun f => .fpack f.v f.ra f.imm },
  { mnemonic := "FADD", opc := 0x12, matchBits := 0x24000000, mask := 0xFE000FFF,
    uses := { rd := true, ra := true, rb := true }, build := fun f => .fadd f.v f.rd f.ra f.rb },
  { mnemonic := "FSUB", opc := 0x13, matchBits := 0x26000000, mask := 0xFE000FFF,
    uses := { rd := true, ra := true, rb := true }, build := fun f => .fsub f.v f.rd f.ra f.rb },
  { mnemonic := "FNEG", opc := 0x14, matchBits := 0x28000000, mask := 0xFE00FFFF,
    uses := { rd := true, ra := true }, build := fun f => .fneg f.v f.rd f.ra },
  { mnemonic := "FDBL", opc := 0x15, matchBits := 0x2A000000, mask := 0xFE00FFFF,
    uses := { rd := true, ra := true }, build := fun f => .fdbl f.v f.rd f.ra },
  { mnemonic := "FTRPL", opc := 0x16, matchBits := 0x2C000000, mask := 0xFE00FFFF,
    uses := { rd := true, ra := true }, build := fun f => .ftrpl f.v f.rd f.ra },
  { mnemonic := "FMUL", opc := 0x17, matchBits := 0x2E000000, mask := 0xFE000FFF,
    uses := { rd := true, ra := true, rb := true }, build := fun f => .fmul f.v f.rd f.ra f.rb },
  { mnemonic := "FSQR", opc := 0x18, matchBits := 0x30000000, mask := 0xFE00FFFF,
    uses := { rd := true, ra := true }, build := fun f => .fsqr f.v f.rd f.ra },
  { mnemonic := "FSQR2", opc := 0x19, matchBits := 0x32000000, mask := 0xFE00FFFF,
    uses := { rd := true, ra := true }, build := fun f => .fsqr2 f.v f.rd f.ra },
  { mnemonic := "FINV", opc := 0x1A, matchBits := 0x34000000, mask := 0xFE00FFFF,
    uses := { rd := true, ra := true }, build := fun f => .finv f.v f.rd f.ra },
  { mnemonic := "FPOW2523", opc := 0x1B, matchBits := 0x36000000, mask := 0xFE00FFFF,
    uses := { rd := true, ra := true }, build := fun f => .fpow2523 f.v f.rd f.ra },
  { mnemonic := "FINVSQRT", opc := 0x1C, matchBits := 0x38000000, mask := 0xFE00FFFF,
    uses := { rd := true, ra := true }, build := fun f => .finvsqrt f.v f.rd f.ra },
  { mnemonic := "FSQRT", opc := 0x1D, matchBits := 0x3A000000, mask := 0xFE00FFFF,
    uses := { rd := true, ra := true }, build := fun f => .fsqrt f.v f.rd f.ra },
  { mnemonic := "FINVSQRTI", opc := 0x1E, matchBits := 0x3C000000, mask := 0xFE00F0FF,
    uses := { rd := true, ra := true, rc := true }, build := fun f => .finvsqrti f.v f.rd f.ra f.rc },
  { mnemonic := "FSQRTI", opc := 0x1F, matchBits := 0x3E000000, mask := 0xFE00F0FF,
    uses := { rd := true, ra := true, rc := true }, build := fun f => .fsqrti f.v f.rd f.ra f.rc },
  { mnemonic := "FISZERO", opc := 0x20, matchBits := 0x40000000, mask := 0xFE00FFFF,
    uses := { rd := true, ra := true }, build := fun f => .fiszero f.v f.rd f.ra },
  { mnemonic := "FISONE", opc := 0x21, matchBits := 0x42000000, mask := 0xFE00FFFF,
    uses := { rd := true, ra := true }, build := fun f => .fisone f.v f.rd f.ra },
  { mnemonic := "FISNEG", opc := 0x22, matchBits := 0x44000000, mask := 0xFE00FFFF,
    uses := { rd := true, ra := true }, build := fun f => .fisneg f.v f.rd f.ra },
  { mnemonic := "FISEQ", opc := 0x23, matchBits := 0x46000000, mask := 0xFE000FFF,
    uses := { rd := true, ra := true, rb := true }, build := fun f => .fiseq f.v f.rd f.ra f.rb },
  { mnemonic := "FCMOV", opc := 0x24, matchBits := 0x48000000, mask := 0xFE00F0FF,
    uses := { rd := true, ra := true, rc := true }, build := fun f => .fcmov f.v f.rd f.ra f.rc },
  { mnemonic := "FABS", opc := 0x25, matchBits := 0x4A000000, mask := 0xFE00FFFF,
    uses := { rd := true, ra := true }, build := fun f => .fabs f.v f.rd f.ra }]

/-- The rows of the scalar commands (30_encoding.md R151). -/
def scalarRows : List Row := [
  { mnemonic := "SUNPACK", opc := 0x30, matchBits := 0x60000000, mask := 0xFE0FFF00,
    uses := { rd := true, imm := true }, build := fun f => .sunpack f.v f.rd f.imm },
  { mnemonic := "SUNPACK64", opc := 0x31, matchBits := 0x62000000, mask := 0xFE0FFF00,
    uses := { rd := true, imm := true }, build := fun f => .sunpack64 f.v f.rd f.imm },
  { mnemonic := "SPACK", opc := 0x32, matchBits := 0x64000000, mask := 0xFEF0FF00,
    uses := { ra := true, imm := true }, build := fun f => .spack f.v f.ra f.imm },
  { mnemonic := "SADD", opc := 0x33, matchBits := 0x66000000, mask := 0xFE000FFF,
    uses := { rd := true, ra := true, rb := true }, build := fun f => .sadd f.v f.rd f.ra f.rb },
  { mnemonic := "SSUB", opc := 0x34, matchBits := 0x68000000, mask := 0xFE000FFF,
    uses := { rd := true, ra := true, rb := true }, build := fun f => .ssub f.v f.rd f.ra f.rb },
  { mnemonic := "SNEG", opc := 0x35, matchBits := 0x6A000000, mask := 0xFE00FFFF,
    uses := { rd := true, ra := true }, build := fun f => .sneg f.v f.rd f.ra },
  { mnemonic := "SMUL", opc := 0x36, matchBits := 0x6C000000, mask := 0xFE000FFF,
    uses := { rd := true, ra := true, rb := true }, build := fun f => .smul f.v f.rd f.ra f.rb },
  { mnemonic := "SSQR", opc := 0x37, matchBits := 0x6E000000, mask := 0xFE00FFFF,
    uses := { rd := true, ra := true }, build := fun f => .ssqr f.v f.rd f.ra },
  { mnemonic := "SINV", opc := 0x38, matchBits := 0x70000000, mask := 0xFE00FFFF,
    uses := { rd := true, ra := true }, build := fun f => .sinv f.v f.rd f.ra },
  { mnemonic := "SISZERO", opc := 0x39, matchBits := 0x72000000, mask := 0xFE00FFFF,
    uses := { rd := true, ra := true }, build := fun f => .siszero f.v f.rd f.ra },
  { mnemonic := "SISONE", opc := 0x3A, matchBits := 0x74000000, mask := 0xFE00FFFF,
    uses := { rd := true, ra := true }, build := fun f => .sisone f.v f.rd f.ra },
  { mnemonic := "SEQ", opc := 0x3B, matchBits := 0x76000000, mask := 0xFE000FFF,
    uses := { rd := true, ra := true, rb := true }, build := fun f => .seq f.v f.rd f.ra f.rb },
  { mnemonic := "SCMOV", opc := 0x3C, matchBits := 0x78000000, mask := 0xFE00F0FF,
    uses := { rd := true, ra := true, rc := true }, build := fun f => .scmov f.v f.rd f.ra f.rc }]

/-- The rows of the group commands (30_encoding.md R151). -/
def groupRows : List Row := [
  { mnemonic := "GUNPACK", opc := 0x40, matchBits := 0x80000000, mask := 0xFE0FF000,
    uses := { rd := true, rc := true, imm := true }, build := fun f => .gunpack f.v f.rd f.rc f.imm },
  { mnemonic := "GPACK", opc := 0x41, matchBits := 0x82000000, mask := 0xFEF0FF00,
    uses := { ra := true, imm := true }, build := fun f => .gpack f.v f.ra f.imm },
  { mnemonic := "GADD", opc := 0x42, matchBits := 0x84000000, mask := 0xFE000FFF,
    uses := { rd := true, ra := true, rb := true }, build := fun f => .gadd f.v f.rd f.ra f.rb },
  { mnemonic := "GDBL", opc := 0x43, matchBits := 0x86000000, mask := 0xFE00FFFF,
    uses := { rd := true, ra := true }, build := fun f => .gdbl f.v f.rd f.ra },
  { mnemonic := "GNEG", opc := 0x44, matchBits := 0x88000000, mask := 0xFE00FFFF,
    uses := { rd := true, ra := true }, build := fun f => .gneg f.v f.rd f.ra },
  { mnemonic := "GSMUL", opc := 0x45, matchBits := 0x8A000000, mask := 0xFE000FFF,
    uses := { rd := true, ra := true, rb := true }, build := fun f => .gsmul f.v f.rd f.ra f.rb },
  { mnemonic := "GSMULB", opc := 0x46, matchBits := 0x8C000000, mask := 0xFE0F0FFF,
    uses := { rd := true, rb := true }, build := fun f => .gsmulb f.v f.rd f.rb },
  { mnemonic := "GMSM", opc := 0x47, matchBits := 0x8E000000, mask := 0xFE000F00,
    uses := { rd := true, ra := true, rb := true, imm := true }, build := fun f => .gmsm f.v f.rd f.ra f.rb f.imm },
  { mnemonic := "GEQ", opc := 0x48, matchBits := 0x90000000, mask := 0xFE000FFF,
    uses := { rd := true, ra := true, rb := true }, build := fun f => .geq f.v f.rd f.ra f.rb },
  { mnemonic := "GISNEUTRAL", opc := 0x49, matchBits := 0x92000000, mask := 0xFE00FFFF,
    uses := { rd := true, ra := true }, build := fun f => .gisneutral f.v f.rd f.ra },
  { mnemonic := "GNEUTRAL", opc := 0x4A, matchBits := 0x94000000, mask := 0xFE0FFFFF,
    uses := { rd := true }, build := fun f => .gneutral f.v f.rd },
  { mnemonic := "GBASE", opc := 0x4B, matchBits := 0x96000000, mask := 0xFE0FFFFF,
    uses := { rd := true }, build := fun f => .gbase f.v f.rd },
  { mnemonic := "GELLIGATOR", opc := 0x4C, matchBits := 0x98000000, mask := 0xFE00FFFF,
    uses := { rd := true, ra := true }, build := fun f => .gelligator f.v f.rd f.ra },
  { mnemonic := "GCMOV", opc := 0x4D, matchBits := 0x9A000000, mask := 0xFE00F0FF,
    uses := { rd := true, ra := true, rc := true }, build := fun f => .gcmov f.v f.rd f.ra f.rc }]

/-- The opcode table (30_encoding.md R151). -/
def rows : List Row := controlRows ++ fieldRows ++ scalarRows ++ groupRows

/-- The row an opcode is assigned to, if any (30_encoding.md R142, R148: rows differ in OPC). -/
def rowOf (opc : BitVec 7) : Option Row := rows.find? (fun r => r.opc == opc)

/-- Every bit of a field that the row does not use is 0 (30_encoding.md R144, R148). -/
def unusedZero (u : Uses) (f : Fields) : Bool :=
  (u.rd || f.rd == 0) && (u.ra || f.ra == 0) && (u.rb || f.rb == 0) && (u.rc || f.rc == 0) && (u.imm || f.imm == 0)

/-- Why a word is illegal.  Both raise the error ILLEGAL when executed (30_encoding.md R148). -/
inductive DecodeError where
  /-- The word's OPC is assigned to no row. -/
  | unassignedOpcode (opc : BitVec 7)
  /-- A bit of a field that the named row marks `0` is 1. -/
  | nonzeroUnusedField (mnemonic : String)
deriving DecidableEq, Repr

/-- The decoder: the row of the word's OPC, if every field it does not use is zero (30_encoding.md R148).  That this is
the selection `(w AND mask) = match` of R148 is the obligation `DecodeSelectsTheRowThatMaskAndMatchSelect`. -/
def decode (w : Word) : Except DecodeError Instr :=
  match rowOf (fieldsOf w).opc with
  | none => .error (.unassignedOpcode (fieldsOf w).opc)
  | some r =>
    if unusedZero r.uses (fieldsOf w) then .ok (r.build (fieldsOf w)) else .error (.nonzeroUnusedField r.mnemonic)

/-- The command a table word of `nbits` bits stands for: a command is one whole word, not bytes (30_encoding.md R141,
20_memory.md R102), so bit k of `w` is bit k of the command word, and bits from `nbits` on are 0. -/
def decodeTableWord (nbits w : Nat) : Option Instr := (decode (BitVec.ofNat 32 (w % 2 ^ nbits))).toOption

/-- The fields of each command (30_encoding.md R151); the fields it does not use are 0. -/
def fieldsOfInstr : Instr → Fields
  | .nop v => { opc := 0x00, v := v }
  | .halt v => { opc := 0x01, v := v }
  | .funpack v rd slot => { opc := 0x10, v := v, rd := rd, imm := slot }
  | .fpack v ra slot => { opc := 0x11, v := v, ra := ra, imm := slot }
  | .fadd v rd ra rb => { opc := 0x12, v := v, rd := rd, ra := ra, rb := rb }
  | .fsub v rd ra rb => { opc := 0x13, v := v, rd := rd, ra := ra, rb := rb }
  | .fneg v rd ra => { opc := 0x14, v := v, rd := rd, ra := ra }
  | .fdbl v rd ra => { opc := 0x15, v := v, rd := rd, ra := ra }
  | .ftrpl v rd ra => { opc := 0x16, v := v, rd := rd, ra := ra }
  | .fmul v rd ra rb => { opc := 0x17, v := v, rd := rd, ra := ra, rb := rb }
  | .fsqr v rd ra => { opc := 0x18, v := v, rd := rd, ra := ra }
  | .fsqr2 v rd ra => { opc := 0x19, v := v, rd := rd, ra := ra }
  | .finv v rd ra => { opc := 0x1A, v := v, rd := rd, ra := ra }
  | .fpow2523 v rd ra => { opc := 0x1B, v := v, rd := rd, ra := ra }
  | .finvsqrt v rd ra => { opc := 0x1C, v := v, rd := rd, ra := ra }
  | .fsqrt v rd ra => { opc := 0x1D, v := v, rd := rd, ra := ra }
  | .finvsqrti v rd ra rc => { opc := 0x1E, v := v, rd := rd, ra := ra, rc := rc }
  | .fsqrti v rd ra rc => { opc := 0x1F, v := v, rd := rd, ra := ra, rc := rc }
  | .fiszero v rd ra => { opc := 0x20, v := v, rd := rd, ra := ra }
  | .fisone v rd ra => { opc := 0x21, v := v, rd := rd, ra := ra }
  | .fisneg v rd ra => { opc := 0x22, v := v, rd := rd, ra := ra }
  | .fiseq v rd ra rb => { opc := 0x23, v := v, rd := rd, ra := ra, rb := rb }
  | .fcmov v rd ra rc => { opc := 0x24, v := v, rd := rd, ra := ra, rc := rc }
  | .fabs v rd ra => { opc := 0x25, v := v, rd := rd, ra := ra }
  | .sunpack v rd slot => { opc := 0x30, v := v, rd := rd, imm := slot }
  | .sunpack64 v rd slot => { opc := 0x31, v := v, rd := rd, imm := slot }
  | .spack v ra slot => { opc := 0x32, v := v, ra := ra, imm := slot }
  | .sadd v rd ra rb => { opc := 0x33, v := v, rd := rd, ra := ra, rb := rb }
  | .ssub v rd ra rb => { opc := 0x34, v := v, rd := rd, ra := ra, rb := rb }
  | .sneg v rd ra => { opc := 0x35, v := v, rd := rd, ra := ra }
  | .smul v rd ra rb => { opc := 0x36, v := v, rd := rd, ra := ra, rb := rb }
  | .ssqr v rd ra => { opc := 0x37, v := v, rd := rd, ra := ra }
  | .sinv v rd ra => { opc := 0x38, v := v, rd := rd, ra := ra }
  | .siszero v rd ra => { opc := 0x39, v := v, rd := rd, ra := ra }
  | .sisone v rd ra => { opc := 0x3A, v := v, rd := rd, ra := ra }
  | .seq v rd ra rb => { opc := 0x3B, v := v, rd := rd, ra := ra, rb := rb }
  | .scmov v rd ra rc => { opc := 0x3C, v := v, rd := rd, ra := ra, rc := rc }
  | .gunpack v rd rc slot => { opc := 0x40, v := v, rd := rd, rc := rc, imm := slot }
  | .gpack v ra slot => { opc := 0x41, v := v, ra := ra, imm := slot }
  | .gadd v rd ra rb => { opc := 0x42, v := v, rd := rd, ra := ra, rb := rb }
  | .gdbl v rd ra => { opc := 0x43, v := v, rd := rd, ra := ra }
  | .gneg v rd ra => { opc := 0x44, v := v, rd := rd, ra := ra }
  | .gsmul v rd ra rb => { opc := 0x45, v := v, rd := rd, ra := ra, rb := rb }
  | .gsmulb v rd rb => { opc := 0x46, v := v, rd := rd, rb := rb }
  | .gmsm v rd ra rb n => { opc := 0x47, v := v, rd := rd, ra := ra, rb := rb, imm := n }
  | .geq v rd ra rb => { opc := 0x48, v := v, rd := rd, ra := ra, rb := rb }
  | .gisneutral v rd ra => { opc := 0x49, v := v, rd := rd, ra := ra }
  | .gneutral v rd => { opc := 0x4A, v := v, rd := rd }
  | .gbase v rd => { opc := 0x4B, v := v, rd := rd }
  | .gelligator v rd ra => { opc := 0x4C, v := v, rd := rd, ra := ra }
  | .gcmov v rd ra rc => { opc := 0x4D, v := v, rd := rd, ra := ra, rc := rc }

/-- The encoder (30_encoding.md R140, R151). -/
def encode (i : Instr) : Word := wordOf (fieldsOfInstr i)

end Sys2Proof
end

