-- ==== Sys2Proof/Machine/FieldArith.lean ====
section
/-! DEFINITION. Byte strings and the arithmetic of GF(2^255-19) (00_scope.md R7 to R10, 41_field.md R192 to R195, R212). -/

namespace Sys2Proof.Machine

/-- `le_int` of a byte string, lowest byte first (00_scope.md R7). -/
def leInt : List Byte → Nat
  | [] => 0
  | b :: bs => b.toNat + 256 * leInt bs

/-- `le_bytes v n`: the n bytes of v, lowest first (00_scope.md R7). -/
def leBytes (v : Nat) : Nat → List Byte
  | 0 => []
  | n + 1 => BitVec.ofNat 8 v :: leBytes (v / 256) n

/-- Square-and-multiply over the lowest `fuel` bits of `e`, from the lowest bit: `acc * b^e mod m`. -/
def powModLoop (m : Nat) : Nat → Nat → Nat → Nat → Nat
  | 0, _, _, acc => acc
  | fuel + 1, b, e, acc =>
    powModLoop m fuel (b * b % m) (e / 2) (if e % 2 = 1 then acc * b % m else acc)

/-- `a^e mod m` for exponents below 2^256, which every exponent of the spec is.  Which addition chain computes a power is
internal (41_field.md R196, 42_scalar.md R266). -/
def powMod (m a e : Nat) : Nat := powModLoop m 256 a e (1 % m)

/-- `x^e` in GF(p) (00_scope.md R9). -/
def fePow (x : Fe) (e : Nat) : Fe := Fin.ofNat fieldPrime (powMod fieldPrime x.val e)

/-- Inversion a^(p-2), which is 0 for a = 0 (41_field.md R210). -/
def feInv (a : Fe) : Fe := fePow a (fieldPrime - 2)

/-- Division a/b, which is a * b^(p-2) and so 0 for b = 0 (41_field.md R227); log entry 9. -/
def feDiv (a b : Fe) : Fe := a * feInv b

/-- `is_negative`: bit 0 of the canonical representative (00_scope.md R10). -/
def isNegative (x : Fe) : Bool := x.val % 2 == 1

/-- `CT_ABS` (00_scope.md R10). -/
def feAbs (x : Fe) : Fe := if isNegative x then -x else x

/-- `CT_SELECT(a IF c ELSE b)` (00_scope.md R10). -/
def ctSelect {α : Type} (c : Bool) (a b : α) : α := if c then a else b

/-- `fe_unpack`: bit 255 is ignored and every remaining 255-bit integer stands for its residue (41_field.md R192). -/
def feUnpack (b : List Byte) : Fe := Fin.ofNat fieldPrime (leInt b % 2 ^ 255)

/-- `fe_pack`: the canonical little-endian bytes (41_field.md R193). -/
def fePack (v : Fe) : List Byte := leBytes v.val 32

/-- `SQRT_M1`: the root of -1 with is_negative = 0 (41_field.md R194). -/
def sqrtM1 : Fe := 19681161376707505956807079304988542015446066515923890162744021073123829784752

/-- `SQRT_RATIO_M1(u, v)`: whether u/v is a square, and the nonnegative root of u/v or of SQRT_M1*u/v
(41_field.md R195). -/
def sqrtRatioM1 (u v : Fe) : Bool × Fe :=
  let v3 := v * v * v
  let v7 := v3 * v3 * v
  let r := u * v3 * fePow (u * v7) ((fieldPrime - 5) / 8)
  let check := v * (r * r)
  let correct := check == u
  let flipped := check == -u
  let flippedI := check == -u * sqrtM1
  let r' := ctSelect (flipped || flippedI) (r * sqrtM1) r
  (correct || flipped, feAbs r')

/-- a is a nonzero square of GF(p), by Euler's criterion (41_field.md R212). -/
def isNonzeroSquare (a : Fe) : Bool := a != 0 && fePow a ((fieldPrime - 1) / 2) == 1

/-- The value FINVSQRT writes for `a`, by draw number `n`: one of the two inverse square roots of a nonzero square, any
field value otherwise (41_field.md R212).  The draw of a root is the draw of its sign; log entry 14. -/
def invSqrtDraw (n : Nat) (a : Fe) : Fe :=
  if isNonzeroSquare a then
    let r := (sqrtRatioM1 1 a).2
    ctSelect (Config.draw 1 n == 1) (-r) r
  else Config.drawField n

end Sys2Proof.Machine
end

