-- ==== Sys2Proof/Machine/State.lean ====
section
/-! DEFINITION. The machine's state as plain data (10_state.md), the reasons a step can stop, and the state right after a
hard reset (10_state.md R74). -/

namespace Sys2Proof.Machine

/-- What a point register holds (10_state.md R44). -/
inductive PointReg where
  /-- No command has written the register since reset. -/
  | unwritten
  /-- An affine point. -/
  | point (P : Pt)
  /-- The sentinel that a failed decode leaves (43_group.md R331). -/
  | poison
deriving DecidableEq, Repr

/-- The engine's errors (60_exceptions.md R370). -/
inductive EngineError where
  /-- The word matches no row of the opcode table. -/
  | illegal
  /-- An immediate names no slot, or GMSM's count is out of range. -/
  | range
  /-- A source register is Unwritten. -/
  | uninit
  /-- A source point register holds Poison. -/
  | poison
  /-- A command other than HALT retired at PC = 255. -/
  | pcovf
deriving DecidableEq, Repr

/-- What moves next: an access of the host, the platform's reset input, or a turn of the engine.  Addresses are the
host's bus addresses and `bytes` is the access width (20_memory.md R101, R106); log entry 4. -/
inductive Event where
  /-- A host read. -/
  | read (addr bytes : Nat)
  /-- A host write; `data` matters only for an access of the form of 20_memory.md R106. -/
  | write (addr bytes : Nat) (data : Word)
  /-- The platform's reset input (70_reset_and_hazards.md R410); log entry 10. -/
  | hardReset
  /-- The engine takes one step, if it is Running. -/
  | engineTurn
deriving DecidableEq, Repr

/-- A memory of `w`-bit units: its written units, addresses strictly rising.  An address that is not listed holds no
written value; what reading it gives is `State.dmemByte` and `State.imemWord` (log entry 3).  `Memory 8` is a list of
`Host.Cell`. -/
abbrev Memory (w : Nat) := List (Nat × BitVec w)

/-- The state of the engine and its window.  Every field but the last four is the spec's. -/
structure State where
  /-- F0..F15; `none` is Unwritten (10_state.md R42). -/
  f : Vector (Option Fe) 16
  /-- S0..S15; `none` is Unwritten (10_state.md R43). -/
  sc : Vector (Option Scalar) 16
  /-- G0..G15 (10_state.md R44). -/
  g : Vector PointReg 16
  /-- B0..B15 (10_state.md R46). -/
  b : Vector Bool 16
  /-- The PC (10_state.md R48). -/
  pc : BitVec 8
  /-- STATUS.BUSY: the phase is Running (10_state.md R41, R63). -/
  busy : Bool
  /-- STATUS.DONE (10_state.md R63). -/
  done : Bool
  /-- STATUS.ERR (10_state.md R63). -/
  err : Bool
  /-- STATUS.HERR (10_state.md R63). -/
  herr : Bool
  /-- STATUS.ERRCODE (10_state.md R63). -/
  errcode : BitVec 8
  /-- CTRL.IE_DONE (10_state.md R62). -/
  ieDone : Bool
  /-- CTRL.IE_ERR (10_state.md R62). -/
  ieErr : Bool
  /-- ERRPC (10_state.md R65). -/
  errpc : BitVec 8
  /-- ERRWORD (10_state.md R66). -/
  errword : Word
  /-- RETIRED (10_state.md R70). -/
  retired : BitVec 32
  /-- IMEM, by word index 0..255 (10_state.md R72). -/
  imem : Memory 32
  /-- DMEM, by byte address 0..2047 (10_state.md R73). -/
  dmem : List Host.Cell
  /-- MODEL: the number of draws made so far (log entry 2). -/
  draws : Nat
  /-- MODEL: the number of hard resets behind this state (log entry 3). -/
  powerOn : Nat
  /-- MODEL: the word the window last returned to the host (log entry 5). -/
  readData : Word
  /-- MODEL: what the outside does next; with an empty list the engine moves (log entry 4). -/
  agenda : List Event
deriving DecidableEq, Repr

/-- Why a step stops with no next state.  The engine's own errors are no faults of the model: they have next states. -/
inductive Fault where
  /-- Raised by `step` when the agenda's next host access has an address outside the engine's window, so that it is no
  access to this machine (20_memory.md R101).  Safe: the model stops, where the platform goes on without the engine. -/
  | outsideWindow
deriving DecidableEq, Repr

/-- Why a command has no meaning. -/
inductive Refusal where
  /-- Raised by an arm of `exec` whose command is not modelled.  No arm raises it: every command has its meaning.
  Safe. -/
  | notModelled (mnemonic : String)
deriving DecidableEq, Repr

/-- The outcome of a step or of a command. -/
abbrev Result := Host.Outcome State Fault Refusal

/-- The machine right after a hard reset (10_state.md R74, 70_reset_and_hazards.md R410, R413). -/
def State.reset : State :=
  { f := Vector.replicate 16 none
    sc := Vector.replicate 16 none
    g := Vector.replicate 16 .unwritten
    b := Vector.replicate 16 false
    pc := 0
    busy := false
    done := false
    err := false
    herr := false
    errcode := 0
    ieDone := false
    ieErr := false
    errpc := 0
    errword := 0
    retired := 0
    imem := []
    dmem := []
    draws := 0
    powerOn := 0
    readData := 0
    agenda := [] }

end Sys2Proof.Machine
end

