-- ==== Sys2Proof/Machine/Ops.lean ====
section
/-! DEFINITION. The named operations on memory and registers, the engine's error stop (the only exception entry of this
machine; there is no return from one, 60_exceptions.md R379), the retirement of a command, and the fetch. -/

namespace Sys2Proof.Machine

/-- The canonical form of a memory: addresses strictly rising, all below `bound` (log entry 3). -/
abbrev Memory.wf {w : Nat} (bound : Nat) (m : Memory w) : Prop :=
  m.Pairwise (fun c d => c.1 < d.1) ∧ ∀ c ∈ m, c.1 < bound

/-- The written value at an address, if any. -/
def Memory.read {w : Nat} : Memory w → Nat → Option (BitVec w)
  | [], _ => none
  | c :: m, a => if c.1 = a then some c.2 else Memory.read m a

/-- Write one unit, keeping the canonical form. -/
def Memory.write {w : Nat} : Memory w → Nat → BitVec w → Memory w
  | [], a, v => [(a, v)]
  | c :: m, a, v =>
    if a < c.1 then (a, v) :: c :: m
    else if c.1 = a then (a, v) :: m
    else c :: Memory.write m a v

/-- Write consecutive units from address `a` on. -/
def Memory.writeRun {w : Nat} : Memory w → Nat → List (BitVec w) → Memory w
  | m, _, [] => m
  | m, a, v :: vs => Memory.writeRun (m.write a v) (a + 1) vs

/-- DMEM byte `a`: what was last written there, or what the last hard reset left (10_state.md R73, R74). -/
def State.dmemByte (s : State) (a : Nat) : Byte :=
  (Memory.read s.dmem a).getD (Config.powerOnByte s.powerOn a)

/-- IMEM word `k`: what was last written there, or what the last hard reset left (10_state.md R72, R74). -/
def State.imemWord (s : State) (k : Nat) : Word :=
  (Memory.read s.imem k).getD (Config.powerOnWord s.powerOn k)

/-- The `n` bytes of DMEM from address `a` on, lowest first. -/
def State.dmemBytes (s : State) (a : Nat) : Nat → List Byte
  | 0 => []
  | n + 1 => s.dmemByte a :: s.dmemBytes (a + 1) n

/-- The address of the first byte of a slot (10_state.md R73). -/
def slotBase (slot : BitVec 8) : Nat := Config.slotBytes * slot.toNat

/-- `DMemRead(n, k)`: the bytes of slots n to n+k-1 (00_scope.md R8). -/
def State.dmemRead (s : State) (slot : BitVec 8) (k : Nat) : List Byte :=
  s.dmemBytes (slotBase slot) (Config.slotBytes * k)

/-- `DMemWrite(n, bytes32)` (00_scope.md R8). -/
def State.dmemWrite (s : State) (slot : BitVec 8) (bytes : List Byte) : State :=
  { s with dmem := Memory.writeRun s.dmem (slotBase slot) bytes }

/-- Write one word of IMEM.  Only the host does (10_state.md R72). -/
def State.imemWrite (s : State) (k : Nat) (w : Word) : State :=
  { s with imem := Memory.write s.imem k w }

/-- `F[i] <- v` (00_scope.md R8): the register then holds a value. -/
def State.setF (s : State) (i : FReg) (v : Fe) : State := { s with f := s.f.set i (some v) }

/-- `S[i] <- v` (00_scope.md R8). -/
def State.setS (s : State) (i : SReg) (v : Scalar) : State := { s with sc := s.sc.set i (some v) }

/-- `G[i] <- v`, a point or Poison (00_scope.md R8, 43_group.md R331). -/
def State.setG (s : State) (i : GReg) (v : PointReg) : State := { s with g := s.g.set i v }

/-- `B[i] <- v` (00_scope.md R8). -/
def State.setB (s : State) (i : BReg) (v : Bool) : State := { s with b := s.b.set i v }

/-- `B[i]`; a read of a B register never fails (10_state.md R45). -/
def State.getB (s : State) (i : BReg) : Bool := s.b[i]

/-- Count `k` draws as made (log entry 2). -/
def State.useDraws (s : State) (k : Nat) : State := { s with draws := s.draws + k }

/-- The code of an error (60_exceptions.md R370). -/
def errorCode : EngineError → BitVec 8
  | .illegal => 0x01
  | .range => 0x02
  | .uninit => 0x03
  | .poison => 0x04
  | .pcovf => 0x05

/-- TAKING AN ERROR: the five writes of an error stop (60_exceptions.md R377).  The PC and every register stay. -/
def State.errorStop (s : State) (e : EngineError) : State :=
  { s with
    errcode := errorCode e
    errpc := s.pc
    errword := s.imemWord s.pc.toNat
    err := true
    busy := false }

/-- `raise Error(e)` of a command: it has no effect but the error stop (00_scope.md R8, 60_exceptions.md R377, R378). -/
def raise (e : EngineError) (s : State) : Result := .next (s.errorStop e)

/-- Retirement of a command other than HALT, whose effect `s` holds: RETIRED counts it; at PC = 255 the engine stops with
PCOVF, else the PC advances (40_control.md R170, R171); log entry 16. -/
def State.retire (s : State) : State :=
  let t := { s with retired := s.retired + 1 }
  if s.pc = 255 then t.errorStop .pcovf else { t with pc := s.pc + 1 }

/-- The end of the run that a HALT makes (40_control.md R176, R170). -/
def State.retireHalt (s : State) : State :=
  { s with retired := s.retired + 1, pc := s.pc + 1, done := true, busy := false }

/-- The fetch: IMEM[PC] (20_memory.md R121). -/
def State.fetch (s : State) : Word := s.imemWord s.pc.toNat

end Sys2Proof.Machine
end

