-- ==== Sys2Proof/Machine/Operands.lean ====
section
/-! DEFINITION. The operand forms: source reads with their checks and the priority among them (10_state.md R45,
60_exceptions.md R376), and the ranges of immediates (30_encoding.md R146, R147). -/

namespace Sys2Proof.Machine

/-- The outcome of the source reads of a command: the error to raise, or the values read. -/
inductive Src (α : Type) where
  | unwritten
  | poison
  | value (a : α)
deriving DecidableEq, Repr

/-- Two source reads together: UNINIT of either comes before POISON of either (60_exceptions.md R376). -/
def Src.both {α β : Type} : Src α → Src β → Src (α × β)
  | .unwritten, _ => .unwritten
  | .poison, .unwritten => .unwritten
  | .poison, _ => .poison
  | .value _, .unwritten => .unwritten
  | .value _, .poison => .poison
  | .value a, .value b => .value (a, b)

/-- A source read of an F or S register (10_state.md R45). -/
def Src.ofOption {α : Type} : Option α → Src α
  | none => .unwritten
  | some a => .value a

/-- A source read of a G register (10_state.md R45). -/
def Src.ofPoint : PointReg → Src Pt
  | .unwritten => .unwritten
  | .poison => .poison
  | .point P => .value P

/-- The source read of F[i]. -/
def State.readF (s : State) (i : FReg) : Src Fe := Src.ofOption s.f[i]

/-- The source read of S[i]. -/
def State.readS (s : State) (i : SReg) : Src Scalar := Src.ofOption s.sc[i]

/-- The source read of G[i]. -/
def State.readG (s : State) (i : GReg) : Src Pt := Src.ofPoint s.g[i]

/-- The 2n source reads of GMSM from G[a] and S[b] on (43_group.md R339). -/
def State.readTerms (s : State) (a b : Nat) : Nat → Src (List (Pt × Scalar))
  | 0 => .value []
  | n + 1 =>
    match ((s.readG (Fin.ofNat 16 a)).both (s.readS (Fin.ofNat 16 b))).both (s.readTerms (a + 1) (b + 1) n) with
    | .unwritten => .unwritten
    | .poison => .poison
    | .value (t, ts) => .value (t :: ts)

/-- A slot immediate in range (30_encoding.md R146). -/
def slotInRange (slot : BitVec 8) : Bool := slot.toNat < Config.dmemSlots

/-- The immediate of SUNPACK64 in range: it reads two slots (30_encoding.md R146). -/
def slotPairInRange (slot : BitVec 8) : Bool := slot.toNat + 1 < Config.dmemSlots

/-- GMSM's count in range (30_encoding.md R147). -/
def countInRange (ra : GReg) (rb : SReg) (n : BitVec 8) : Bool :=
  1 ≤ n.toNat && ra.val + n.toNat ≤ 16 && rb.val + n.toNat ≤ 16

/-- The range check of a command, which comes before its source reads (60_exceptions.md R376). -/
def checkRange (ok : Bool) (s : State) (go : Result) : Result := if ok then go else raise .range s

/-- A command with no source read left to check: its effect, then its retirement (40_control.md R170). -/
def complete (effect : State) : Result := .next effect.retire

/-- A command with source reads: the error they raise, or its effect on the values read and its retirement
(40_control.md R170, 60_exceptions.md R376). -/
def withSources {α : Type} (src : Src α) (s : State) (effect : α → State) : Result :=
  match src with
  | .unwritten => raise .uninit s
  | .poison => raise .poison s
  | .value a => complete (effect a)

end Sys2Proof.Machine
end

