-- ==== Sys2Proof/Machine/Control.lean ====
section
/-! DEFINITION. The meanings of the control commands (40_control.md).  `_v` is the public-input hint, which changes nothing
(30_encoding.md R143). -/

namespace Sys2Proof.Machine

/-- NOP (40_control.md R175). -/
def execNop (_v : Bool) (s : State) : Result := complete s

/-- HALT (40_control.md R176). -/
def execHalt (_v : Bool) (s : State) : Result := .next s.retireHalt

end Sys2Proof.Machine
end

