-- ==== Sys2Proof/Machine/Curve.lean ====
section
/-! DEFINITION. The twisted Edwards curve, its constants, the group law, and the Ristretto encoding, decoding and map
(43_group.md R310 to R321). -/

namespace Sys2Proof.Machine

/-- The curve constant D = -121665/121666 (43_group.md R311). -/
def curveD : Fe := 37095705934669439343138083508754565189542113879843219016388785533085940283555

/-- 2D, the doubling constant (43_group.md R311). -/
def curve2D : Fe := curveD + curveD

/-- INVSQRT_A_MINUS_D (43_group.md R311). -/
def invsqrtAMinusD : Fe := 54469307008909316920995813868745141605393597292927456921205312896311721017578

/-- SQRT_AD_MINUS_ONE, the root RFC 9496 fixes (43_group.md R311). -/
def sqrtADMinusOne : Fe := 25063068953384623474111414158702152701244531502492656460079210482610430750235

/-- ONE_MINUS_D_SQ (43_group.md R311). -/
def oneMinusDSq : Fe := 1159843021668779879193775521855586647937357759715417654439879720876111806838

/-- D_MINUS_ONE_SQ (43_group.md R311). -/
def dMinusOneSq : Fe := 40440834346308536858101042469323190826248399146238708352240133220865137265952

/-- The neutral element (0, 1) (43_group.md R310). -/
def neutral : Pt := ⟨0, 1⟩

/-- The base point B (43_group.md R312). -/
def basePoint : Pt :=
  ⟨15112221349535400772501151409588531511454012693041857206046113283949847762202,
   46316835694926478169428394003475163141307993866256225615783033603165251855960⟩

/-- The curve equation -x^2 + y^2 = 1 + D*x^2*y^2 (43_group.md R310). -/
def onCurve (P : Pt) : Bool :=
  -(P.x * P.x) + P.y * P.y == 1 + curveD * (P.x * P.x) * (P.y * P.y)

/-- The group law on affine points (43_group.md R313). -/
def ptAdd (P Q : Pt) : Pt :=
  let k := curveD * P.x * Q.x * P.y * Q.y
  ⟨feDiv (P.x * Q.y + P.y * Q.x) (1 + k), feDiv (P.y * Q.y + P.x * Q.x) (1 - k)⟩

/-- dbl(P) = P + P (43_group.md R313). -/
def ptDbl (P : Pt) : Pt := ptAdd P P

/-- Negation (43_group.md R314). -/
def ptNeg (P : Pt) : Pt := ⟨-P.x, P.y⟩

/-- A point in extended coordinates (X:Y:Z:T), x = X/Z, y = Y/Z, X*Y = Z*T (10_state.md R55). -/
structure Ext where
  X : Fe
  Y : Fe
  Z : Fe
  T : Fe
deriving DecidableEq, Repr

/-- The representative of an affine point with Z = 1. -/
def extOfPt (P : Pt) : Ext := ⟨P.x, P.y, 1, P.x * P.y⟩

/-- The affine point of a representative. -/
def ptOfExt (E : Ext) : Pt :=
  let zi := feInv E.Z
  ⟨E.X * zi, E.Y * zi⟩

/-- add-2008-hwcd for a = -1 (43_group.md R320). -/
def extAdd (P Q : Ext) : Ext :=
  let a := (P.Y - P.X) * (Q.Y - Q.X)
  let b := (P.Y + P.X) * (Q.Y + Q.X)
  let c := P.T * curve2D * Q.T
  let d := (P.Z + P.Z) * Q.Z
  let e := b - a
  let f := d - c
  let g := d + c
  let h := b + a
  ⟨e * f, g * h, f * g, e * h⟩

/-- dbl-2008-hwcd for a = -1 (43_group.md R321). -/
def extDbl (P : Ext) : Ext :=
  let a := P.X * P.X
  let b := P.Y * P.Y
  let c := P.Z * P.Z + P.Z * P.Z
  let h := a + b
  let e := h - (P.X + P.Y) * (P.X + P.Y)
  let g := a - b
  let f := c + g
  ⟨e * f, g * h, f * g, e * h⟩

/-- k*P over the lowest `bits` bits of k, from the highest: one doubling a bit and one addition a set bit. -/
def extMul (P : Ext) : Nat → Nat → Ext
  | 0, _ => ⟨0, 1, 1, 0⟩
  | bits + 1, k =>
    let r := extDbl (extMul P bits (k / 2))
    if k % 2 = 1 then extAdd r P else r

/-- k*P for 0 <= k < 2^253, so for every scalar (43_group.md R313, R322).  The algorithm is internal to the engine: the
model doubles and adds in extended coordinates; log entry 8. -/
def ptMul (k : Nat) (P : Pt) : Pt := ptOfExt (extMul (extOfPt P) 253 k)

/-- The sum s_0*P_0 + (s_1*P_1 + ...) of GMSM (43_group.md R339); log entry 17. -/
def ptMulSum : List (Pt × Scalar) → Pt
  | [] => neutral
  | [t] => ptMul t.2.val t.1
  | t :: u :: ts => ptAdd (ptMul t.2.val t.1) (ptMulSum (u :: ts))

/-- `ristretto_encode` on an extended representative (43_group.md R316). -/
def ristrettoEncodeExt (P : Ext) : List Byte :=
  let u1 := (P.Z + P.Y) * (P.Z - P.Y)
  let u2 := P.X * P.Y
  let invsqrt := (sqrtRatioM1 1 (u1 * (u2 * u2))).2
  let den1 := invsqrt * u1
  let den2 := invsqrt * u2
  let zInv := den1 * den2 * P.T
  let ix0 := P.X * sqrtM1
  let iy0 := P.Y * sqrtM1
  let enchanted := den1 * invsqrtAMinusD
  let rotate := isNegative (P.T * zInv)
  let x := ctSelect rotate iy0 P.X
  let y := ctSelect rotate ix0 P.Y
  let denInv := ctSelect rotate enchanted den2
  let y' := ctSelect (isNegative (x * zInv)) (-y) y
  fePack (feAbs (denInv * (P.Z - y')))

/-- `ristretto_encode` of an affine point (43_group.md R316). -/
def ristrettoEncode (P : Pt) : List Byte := ristrettoEncodeExt (extOfPt P)

/-- The part of `ristretto_decode` after the canonicality and sign checks of s (43_group.md R317). -/
def ristrettoDecodeField (s : Fe) : Option Pt :=
  let ss := s * s
  let u1 := 1 - ss
  let u2 := 1 + ss
  let u2Sqr := u2 * u2
  let v := -(curveD * (u1 * u1)) - u2Sqr
  let root := sqrtRatioM1 1 (v * u2Sqr)
  let denX := root.2 * u2
  let denY := root.2 * denX * v
  let x := feAbs ((s + s) * denX)
  let y := u1 * denY
  let t := x * y
  if !root.1 || isNegative t || y == 0 then none else some ⟨x, y⟩

/-- `ristretto_decode` of 32 bytes: `none` is FAIL (43_group.md R317, 90_conflicts.md C7). -/
def ristrettoDecode (b : List Byte) : Option Pt :=
  let s := leInt b
  if fieldPrime ≤ s then none
  else if isNegative (Fin.ofNat fieldPrime s) then none
  else ristrettoDecodeField (Fin.ofNat fieldPrime s)

/-- The representative `elligator` computes (43_group.md R318). -/
def elligatorExt (t : Fe) : Ext :=
  let r := sqrtM1 * (t * t)
  let u := (r + 1) * oneMinusDSq
  let v := (-1 - r * curveD) * (r + curveD)
  let root := sqrtRatioM1 u v
  let sPrime := -feAbs (root.2 * t)
  let s := ctSelect root.1 root.2 sPrime
  let c := ctSelect root.1 (-1) r
  let n := c * (r - 1) * dMinusOneSq - v
  let w0 := (s + s) * v
  let w1 := n * sqrtADMinusOne
  let w2 := 1 - s * s
  let w3 := 1 + s * s
  ⟨w0 * w3, w2 * w1, w1 * w3, w0 * w2⟩

/-- `elligator(t)`, the affine point (43_group.md R318). -/
def elligator (t : Fe) : Pt := ptOfExt (elligatorExt t)

end Sys2Proof.Machine
end

