-- ==== Sys2Proof/Machine/Flags.lean ====
section
/-! DEFINITION. The booleans commands write to B registers (10_state.md R46), and the fields of STATUS, FSVALID, GVALID
and BREG as the host reads them (10_state.md R63, R67 to R69, 60_exceptions.md R380). -/

namespace Sys2Proof.Machine

/-- FISZERO's flag (41_field.md R216). -/
def feIsZero (a : Fe) : Bool := a.val == 0

/-- FISONE's flag (41_field.md R217). -/
def feIsOne (a : Fe) : Bool := a.val == 1

/-- FISEQ's flag (41_field.md R219). -/
def feIsEq (a b : Fe) : Bool := a == b

/-- SISZERO's flag (42_scalar.md R281). -/
def scIsZero (a : Scalar) : Bool := a.val == 0

/-- SISONE's flag (42_scalar.md R282). -/
def scIsOne (a : Scalar) : Bool := a.val == 1

/-- SEQ's flag (42_scalar.md R283). -/
def scIsEq (a b : Scalar) : Bool := a == b

/-- `geq`, the OR of two cross products, kept exactly (43_group.md R315). -/
def ptGeq (P Q : Pt) : Bool := P.x * Q.y == Q.x * P.y || P.x * Q.x == P.y * Q.y

/-- GISNEUTRAL's flag: three doublings, then equality with the neutral element (43_group.md R341). -/
def ptIsNeutral (P : Pt) : Bool := ptGeq (ptDbl (ptDbl (ptDbl P))) neutral

/-- The interrupt output, a level (60_exceptions.md R380). -/
def State.irq (s : State) : Bool := (s.done && s.ieDone) || ((s.err || s.herr) && s.ieErr)

/-- The platform's interrupt number `n` as the engine drives it: its one line goes to IRQ_ROUTING (60_exceptions.md R380). -/
def State.platformInterrupt (s : State) (n : Nat) : Bool := n == Config.irqRouting && s.irq

/-- The integer of a list of bits, lowest first. -/
def bitsToNat : List Bool → Nat
  | [] => 0
  | b :: bs => b.toNat + 2 * bitsToNat bs

/-- CTRL as the host reads it (10_state.md R62). -/
def State.ctrlWord (s : State) : Word := BitVec.ofNat 32 (s.ieDone.toNat * 4 + s.ieErr.toNat * 8)

/-- STATUS as the host reads it (10_state.md R63). -/
def State.statusWord (s : State) : Word :=
  BitVec.ofNat 32 (s.busy.toNat + s.done.toNat * 2 + s.err.toNat * 4 + s.herr.toNat * 8 + s.errcode.toNat * 2 ^ 8
    + s.irq.toNat * 2 ^ 16)

/-- BREG as the host reads it while Idle (10_state.md R67). -/
def State.bregWord (s : State) : Word := BitVec.ofNat 32 (bitsToNat s.b.toList)

/-- FSVALID as the host reads it while Idle (10_state.md R68). -/
def State.fsvalidWord (s : State) : Word :=
  BitVec.ofNat 32 (bitsToNat (s.f.toList.map Option.isSome) + 2 ^ 16 * bitsToNat (s.sc.toList.map Option.isSome))

/-- GVALID as the host reads it while Idle (10_state.md R69). -/
def State.gvalidWord (s : State) : Word :=
  BitVec.ofNat 32 (bitsToNat (s.g.toList.map (fun r => r != .unwritten))
    + 2 ^ 16 * bitsToNat (s.g.toList.map (fun r => r == .poison)))

end Sys2Proof.Machine
end

