-- ==== Sys2Proof/Machine/Field.lean ====
section
/-! DEFINITION. The meanings of the field commands (41_field.md).  `_v` is the public-input hint, which changes nothing
(30_encoding.md R143).  Every command checks its immediate, then its sources, and only then has its effect
(60_exceptions.md R376). -/

namespace Sys2Proof.Machine

/-- FUNPACK: load a field element from a slot (41_field.md R200). -/
def execFunpack (_v : Bool) (rd : FReg) (slot : BitVec 8) (s : State) : Result :=
  checkRange (slotInRange slot) s (complete (s.setF rd (feUnpack (s.dmemRead slot 1))))

/-- FPACK: store a field element canonically to a slot (41_field.md R201). -/
def execFpack (_v : Bool) (ra : FReg) (slot : BitVec 8) (s : State) : Result :=
  checkRange (slotInRange slot) s (withSources (s.readF ra) s fun a => s.dmemWrite slot (fePack a))

/-- FADD: a + b (41_field.md R202). -/
def execFadd (_v : Bool) (rd ra rb : FReg) (s : State) : Result :=
  withSources ((s.readF ra).both (s.readF rb)) s fun (a, b) => s.setF rd (a + b)

/-- FSUB: a - b (41_field.md R203). -/
def execFsub (_v : Bool) (rd ra rb : FReg) (s : State) : Result :=
  withSources ((s.readF ra).both (s.readF rb)) s fun (a, b) => s.setF rd (a - b)

/-- FNEG: -a (41_field.md R204). -/
def execFneg (_v : Bool) (rd ra : FReg) (s : State) : Result :=
  withSources (s.readF ra) s fun a => s.setF rd (-a)

/-- FDBL: 2a (41_field.md R205). -/
def execFdbl (_v : Bool) (rd ra : FReg) (s : State) : Result :=
  withSources (s.readF ra) s fun a => s.setF rd (a + a)

/-- FTRPL: 3a (41_field.md R206). -/
def execFtrpl (_v : Bool) (rd ra : FReg) (s : State) : Result :=
  withSources (s.readF ra) s fun a => s.setF rd (a + a + a)

/-- FMUL: a * b (41_field.md R207). -/
def execFmul (_v : Bool) (rd ra rb : FReg) (s : State) : Result :=
  withSources ((s.readF ra).both (s.readF rb)) s fun (a, b) => s.setF rd (a * b)

/-- FSQR: a^2 (41_field.md R208). -/
def execFsqr (_v : Bool) (rd ra : FReg) (s : State) : Result :=
  withSources (s.readF ra) s fun a => s.setF rd (a * a)

/-- FSQR2: 2a^2 (41_field.md R209). -/
def execFsqr2 (_v : Bool) (rd ra : FReg) (s : State) : Result :=
  withSources (s.readF ra) s fun a => s.setF rd (a * a + a * a)

/-- FINV: a^(p-2), so 0 for a = 0 (41_field.md R210). -/
def execFinv (_v : Bool) (rd ra : FReg) (s : State) : Result :=
  withSources (s.readF ra) s fun a => s.setF rd (feInv a)

/-- FPOW2523: a^(2^252 - 3) (41_field.md R211). -/
def execFpow2523 (_v : Bool) (rd ra : FReg) (s : State) : Result :=
  withSources (s.readF ra) s fun a => s.setF rd (fePow a (2 ^ 252 - 3))

/-- FINVSQRT: an inverse square root of a nonzero square, any field value otherwise: one draw (41_field.md R212). -/
def execFinvsqrt (_v : Bool) (rd ra : FReg) (s : State) : Result :=
  withSources (s.readF ra) s fun a => (s.setF rd (invSqrtDraw s.draws a)).useDraws 1

/-- FSQRT: the value FINVSQRT would write, times a: one draw (41_field.md R213). -/
def execFsqrt (_v : Bool) (rd ra : FReg) (s : State) : Result :=
  withSources (s.readF ra) s fun a => (s.setF rd (invSqrtDraw s.draws a * a)).useDraws 1

/-- FINVSQRTI: the nonnegative inverse square root, with its flag (41_field.md R214). -/
def execFinvsqrti (_v : Bool) (rd ra : FReg) (rc : BReg) (s : State) : Result :=
  withSources (s.readF ra) s fun a => (s.setF rd (sqrtRatioM1 1 a).2).setB rc (sqrtRatioM1 1 a).1

/-- FSQRTI: the inverse square root of FINVSQRTI times a, with its flag (41_field.md R215). -/
def execFsqrti (_v : Bool) (rd ra : FReg) (rc : BReg) (s : State) : Result :=
  withSources (s.readF ra) s fun a => (s.setF rd ((sqrtRatioM1 1 a).2 * a)).setB rc (sqrtRatioM1 1 a).1

/-- FISZERO (41_field.md R216). -/
def execFiszero (_v : Bool) (rd : BReg) (ra : FReg) (s : State) : Result :=
  withSources (s.readF ra) s fun a => s.setB rd (feIsZero a)

/-- FISONE (41_field.md R217). -/
def execFisone (_v : Bool) (rd : BReg) (ra : FReg) (s : State) : Result :=
  withSources (s.readF ra) s fun a => s.setB rd (feIsOne a)

/-- FISNEG: bit 0 of the canonical value (41_field.md R218). -/
def execFisneg (_v : Bool) (rd : BReg) (ra : FReg) (s : State) : Result :=
  withSources (s.readF ra) s fun a => s.setB rd (isNegative a)

/-- FISEQ (41_field.md R219). -/
def execFiseq (_v : Bool) (rd : BReg) (ra rb : FReg) (s : State) : Result :=
  withSources ((s.readF ra).both (s.readF rb)) s fun (a, b) => s.setB rd (feIsEq a b)

/-- FCMOV: the destination is a source too, whatever the selector (41_field.md R220). -/
def execFcmov (_v : Bool) (rd ra : FReg) (rc : BReg) (s : State) : Result :=
  withSources ((s.readF rd).both (s.readF ra)) s fun (d, a) => s.setF rd (ctSelect (s.getB rc) a d)

/-- FABS: CT_ABS(a) (41_field.md R221). -/
def execFabs (_v : Bool) (rd ra : FReg) (s : State) : Result :=
  withSources (s.readF ra) s fun a => s.setF rd (feAbs a)

end Sys2Proof.Machine
end

