-- ==== Sys2Proof/Machine/Group.lean ====
section
/-! DEFINITION. The meanings of the group commands (43_group.md).  `_v` is the public-input hint, which changes nothing
(30_encoding.md R143).  Every command checks its immediate, then its sources, and only then has its effect
(60_exceptions.md R376). -/

namespace Sys2Proof.Machine

/-- What GUNPACK writes to its point register: the decoded point, or Poison (43_group.md R332). -/
def decodedReg : Option Pt → PointReg
  | none => .poison
  | some P => .point P

/-- GUNPACK: decode a Ristretto encoding; a failed decode writes Poison and is no error (43_group.md R332). -/
def execGunpack (_v : Bool) (rd : GReg) (rc : BReg) (slot : BitVec 8) (s : State) : Result :=
  checkRange (slotInRange slot) s
    (complete ((s.setG rd (decodedReg (ristrettoDecode (s.dmemRead slot 1)))).setB rc
      (ristrettoDecode (s.dmemRead slot 1)).isSome))

/-- GPACK: encode a point to a slot (43_group.md R333). -/
def execGpack (_v : Bool) (ra : GReg) (slot : BitVec 8) (s : State) : Result :=
  checkRange (slotInRange slot) s (withSources (s.readG ra) s fun P => s.dmemWrite slot (ristrettoEncode P))

/-- GADD: P + Q, complete (43_group.md R334). -/
def execGadd (_v : Bool) (rd ra rb : GReg) (s : State) : Result :=
  withSources ((s.readG ra).both (s.readG rb)) s fun (P, Q) => s.setG rd (.point (ptAdd P Q))

/-- GDBL: P + P (43_group.md R335). -/
def execGdbl (_v : Bool) (rd ra : GReg) (s : State) : Result :=
  withSources (s.readG ra) s fun P => s.setG rd (.point (ptDbl P))

/-- GNEG: -P (43_group.md R336). -/
def execGneg (_v : Bool) (rd ra : GReg) (s : State) : Result :=
  withSources (s.readG ra) s fun P => s.setG rd (.point (ptNeg P))

/-- GSMUL: s*P (43_group.md R337). -/
def execGsmul (_v : Bool) (rd ra : GReg) (rb : SReg) (s : State) : Result :=
  withSources ((s.readG ra).both (s.readS rb)) s fun (P, k) => s.setG rd (.point (ptMul k.val P))

/-- GSMULB: s*B (43_group.md R338). -/
def execGsmulb (_v : Bool) (rd : GReg) (rb : SReg) (s : State) : Result :=
  withSources (s.readS rb) s fun k => s.setG rd (.point (ptMul k.val basePoint))

/-- GMSM: the sum of n products (43_group.md R339). -/
def execGmsm (_v : Bool) (rd ra : GReg) (rb : SReg) (n : BitVec 8) (s : State) : Result :=
  checkRange (countInRange ra rb n) s
    (withSources (s.readTerms ra.val rb.val n.toNat) s fun ts => s.setG rd (.point (ptMulSum ts)))

/-- GEQ: Ristretto equality (43_group.md R340). -/
def execGeq (_v : Bool) (rd : BReg) (ra rb : GReg) (s : State) : Result :=
  withSources ((s.readG ra).both (s.readG rb)) s fun (P, Q) => s.setB rd (ptGeq P Q)

/-- GISNEUTRAL (43_group.md R341). -/
def execGisneutral (_v : Bool) (rd : BReg) (ra : GReg) (s : State) : Result :=
  withSources (s.readG ra) s fun P => s.setB rd (ptIsNeutral P)

/-- GNEUTRAL (43_group.md R342). -/
def execGneutral (_v : Bool) (rd : GReg) (s : State) : Result :=
  complete (s.setG rd (.point neutral))

/-- GBASE (43_group.md R343). -/
def execGbase (_v : Bool) (rd : GReg) (s : State) : Result :=
  complete (s.setG rd (.point basePoint))

/-- GELLIGATOR: map a field element to a point (43_group.md R344). -/
def execGelligator (_v : Bool) (rd : GReg) (ra : FReg) (s : State) : Result :=
  withSources (s.readF ra) s fun t => s.setG rd (.point (elligator t))

/-- GCMOV: the destination is a source too, whatever the selector (43_group.md R345). -/
def execGcmov (_v : Bool) (rd ra : GReg) (rc : BReg) (s : State) : Result :=
  withSources ((s.readG rd).both (s.readG ra)) s fun (D, P) => s.setG rd (.point (ctSelect (s.getB rc) P D))

end Sys2Proof.Machine
end

