-- ==== Sys2Proof/Machine/ScalarArith.lean ====
section
/-! DEFINITION. The arithmetic of the scalar unit, integers modulo the group order l (42_scalar.md R260 to R266). -/

namespace Sys2Proof.Machine

/-- `sc_unpack`: bits 253 to 255 are masked off and the rest reduced modulo l (42_scalar.md R262). -/
def scUnpack (b : List Byte) : Scalar := Fin.ofNat groupOrder (leInt b % 2 ^ 253)

/-- The reduction of a whole byte string modulo l, no bit masked (42_scalar.md R273). -/
def scReduce (b : List Byte) : Scalar := Fin.ofNat groupOrder (leInt b)

/-- `sc_pack` (42_scalar.md R263). -/
def scPack (s : Scalar) : List Byte := leBytes s.val 32

/-- Inversion a^(l-2) mod l, which is 0 for a = 0 (42_scalar.md R280). -/
def scInv (a : Scalar) : Scalar := Fin.ofNat groupOrder (powMod groupOrder a.val (groupOrder - 2))

end Sys2Proof.Machine
end

