-- ==== Sys2Proof/Machine/Scalar.lean ====
section
/-! DEFINITION. The meanings of the scalar commands (42_scalar.md).  `_v` is the public-input hint, which changes nothing
(30_encoding.md R143).  Every command checks its immediate, then its sources, and only then has its effect
(60_exceptions.md R376). -/

namespace Sys2Proof.Machine

/-- SUNPACK: load a scalar from a slot, masking and reducing (42_scalar.md R272). -/
def execSunpack (_v : Bool) (rd : SReg) (slot : BitVec 8) (s : State) : Result :=
  checkRange (slotInRange slot) s (complete (s.setS rd (scUnpack (s.dmemRead slot 1))))

/-- SUNPACK64: reduce the 64 bytes of two slots, the lower-numbered slot low (42_scalar.md R273). -/
def execSunpack64 (_v : Bool) (rd : SReg) (slot : BitVec 8) (s : State) : Result :=
  checkRange (slotPairInRange slot) s (complete (s.setS rd (scReduce (s.dmemRead slot 2))))

/-- SPACK: store a scalar to a slot (42_scalar.md R274). -/
def execSpack (_v : Bool) (ra : SReg) (slot : BitVec 8) (s : State) : Result :=
  checkRange (slotInRange slot) s (withSources (s.readS ra) s fun a => s.dmemWrite slot (scPack a))

/-- SADD: (a + b) mod l (42_scalar.md R275). -/
def execSadd (_v : Bool) (rd ra rb : SReg) (s : State) : Result :=
  withSources ((s.readS ra).both (s.readS rb)) s fun (a, b) => s.setS rd (a + b)

/-- SSUB: (a - b) mod l (42_scalar.md R276). -/
def execSsub (_v : Bool) (rd ra rb : SReg) (s : State) : Result :=
  withSources ((s.readS ra).both (s.readS rb)) s fun (a, b) => s.setS rd (a - b)

/-- SNEG: (-a) mod l (42_scalar.md R277). -/
def execSneg (_v : Bool) (rd ra : SReg) (s : State) : Result :=
  withSources (s.readS ra) s fun a => s.setS rd (-a)

/-- SMUL: (a * b) mod l (42_scalar.md R278). -/
def execSmul (_v : Bool) (rd ra rb : SReg) (s : State) : Result :=
  withSources ((s.readS ra).both (s.readS rb)) s fun (a, b) => s.setS rd (a * b)

/-- SSQR: (a * a) mod l (42_scalar.md R279). -/
def execSsqr (_v : Bool) (rd ra : SReg) (s : State) : Result :=
  withSources (s.readS ra) s fun a => s.setS rd (a * a)

/-- SINV: a^(l-2) mod l, so 0 for a = 0 (42_scalar.md R280). -/
def execSinv (_v : Bool) (rd ra : SReg) (s : State) : Result :=
  withSources (s.readS ra) s fun a => s.setS rd (scInv a)

/-- SISZERO (42_scalar.md R281). -/
def execSiszero (_v : Bool) (rd : BReg) (ra : SReg) (s : State) : Result :=
  withSources (s.readS ra) s fun a => s.setB rd (scIsZero a)

/-- SISONE (42_scalar.md R282). -/
def execSisone (_v : Bool) (rd : BReg) (ra : SReg) (s : State) : Result :=
  withSources (s.readS ra) s fun a => s.setB rd (scIsOne a)

/-- SEQ (42_scalar.md R283). -/
def execSeq (_v : Bool) (rd : BReg) (ra rb : SReg) (s : State) : Result :=
  withSources ((s.readS ra).both (s.readS rb)) s fun (a, b) => s.setB rd (scIsEq a b)

/-- SCMOV: the destination is a source too, whatever the selector (42_scalar.md R284). -/
def execScmov (_v : Bool) (rd ra : SReg) (rc : BReg) (s : State) : Result :=
  withSources ((s.readS rd).both (s.readS ra)) s fun (d, a) => s.setS rd (ctSelect (s.getB rc) a d)

end Sys2Proof.Machine
end

