-- ==== Sys2Proof/Machine/Dispatch.lean ====
section
/-! DEFINITION. The dispatch: one arm per command, each one direct call of that command's meaning. -/

namespace Sys2Proof.Machine

def exec (i : Instr) (s : State) : Host.Outcome State Fault Refusal :=
  match i with
  | .nop v => Sys2Proof.Machine.execNop v s
  | .halt v => Sys2Proof.Machine.execHalt v s
  | .funpack v rd slot => Sys2Proof.Machine.execFunpack v rd slot s
  | .fpack v ra slot => Sys2Proof.Machine.execFpack v ra slot s
  | .fadd v rd ra rb => Sys2Proof.Machine.execFadd v rd ra rb s
  | .fsub v rd ra rb => Sys2Proof.Machine.execFsub v rd ra rb s
  | .fneg v rd ra => Sys2Proof.Machine.execFneg v rd ra s
  | .fdbl v rd ra => Sys2Proof.Machine.execFdbl v rd ra s
  | .ftrpl v rd ra => Sys2Proof.Machine.execFtrpl v rd ra s
  | .fmul v rd ra rb => Sys2Proof.Machine.execFmul v rd ra rb s
  | .fsqr v rd ra => Sys2Proof.Machine.execFsqr v rd ra s
  | .fsqr2 v rd ra => Sys2Proof.Machine.execFsqr2 v rd ra s
  | .finv v rd ra => Sys2Proof.Machine.execFinv v rd ra s
  | .fpow2523 v rd ra => Sys2Proof.Machine.execFpow2523 v rd ra s
  | .finvsqrt v rd ra => Sys2Proof.Machine.execFinvsqrt v rd ra s
  | .fsqrt v rd ra => Sys2Proof.Machine.execFsqrt v rd ra s
  | .finvsqrti v rd ra rc => Sys2Proof.Machine.execFinvsqrti v rd ra rc s
  | .fsqrti v rd ra rc => Sys2Proof.Machine.execFsqrti v rd ra rc s
  | .fiszero v rd ra => Sys2Proof.Machine.execFiszero v rd ra s
  | .fisone v rd ra => Sys2Proof.Machine.execFisone v rd ra s
  | .fisneg v rd ra => Sys2Proof.Machine.execFisneg v rd ra s
  | .fiseq v rd ra rb => Sys2Proof.Machine.execFiseq v rd ra rb s
  | .fcmov v rd ra rc => Sys2Proof.Machine.execFcmov v rd ra rc s
  | .fabs v rd ra => Sys2Proof.Machine.execFabs v rd ra s
  | .sunpack v rd slot => Sys2Proof.Machine.execSunpack v rd slot s
  | .sunpack64 v rd slot => Sys2Proof.Machine.execSunpack64 v rd slot s
  | .spack v ra slot => Sys2Proof.Machine.execSpack v ra slot s
  | .sadd v rd ra rb => Sys2Proof.Machine.execSadd v rd ra rb s
  | .ssub v rd ra rb => Sys2Proof.Machine.execSsub v rd ra rb s
  | .sneg v rd ra => Sys2Proof.Machine.execSneg v rd ra s
  | .smul v rd ra rb => Sys2Proof.Machine.execSmul v rd ra rb s
  | .ssqr v rd ra => Sys2Proof.Machine.execSsqr v rd ra s
  | .sinv v rd ra => Sys2Proof.Machine.execSinv v rd ra s
  | .siszero v rd ra => Sys2Proof.Machine.execSiszero v rd ra s
  | .sisone v rd ra => Sys2Proof.Machine.execSisone v rd ra s
  | .seq v rd ra rb => Sys2Proof.Machine.execSeq v rd ra rb s
  | .scmov v rd ra rc => Sys2Proof.Machine.execScmov v rd ra rc s
  | .gunpack v rd rc slot => Sys2Proof.Machine.execGunpack v rd rc slot s
  | .gpack v ra slot => Sys2Proof.Machine.execGpack v ra slot s
  | .gadd v rd ra rb => Sys2Proof.Machine.execGadd v rd ra rb s
  | .gdbl v rd ra => Sys2Proof.Machine.execGdbl v rd ra s
  | .gneg v rd ra => Sys2Proof.Machine.execGneg v rd ra s
  | .gsmul v rd ra rb => Sys2Proof.Machine.execGsmul v rd ra rb s
  | .gsmulb v rd rb => Sys2Proof.Machine.execGsmulb v rd rb s
  | .gmsm v rd ra rb n => Sys2Proof.Machine.execGmsm v rd ra rb n s
  | .geq v rd ra rb => Sys2Proof.Machine.execGeq v rd ra rb s
  | .gisneutral v rd ra => Sys2Proof.Machine.execGisneutral v rd ra s
  | .gneutral v rd => Sys2Proof.Machine.execGneutral v rd s
  | .gbase v rd => Sys2Proof.Machine.execGbase v rd s
  | .gelligator v rd ra => Sys2Proof.Machine.execGelligator v rd ra s
  | .gcmov v rd ra rc => Sys2Proof.Machine.execGcmov v rd ra rc s

end Sys2Proof.Machine
end

