-- ==== Sys2Proof/Machine/Host.lean ====
section
/-! DEFINITION. The host's side of the machine: the window's registers and memories, START, the two resets, and the
sequencing of host and engine (10_state.md R60 to R73, 20_memory.md R101 to R107, 60_exceptions.md R374 to R380,
70_reset_and_hazards.md R410 to R412). -/

namespace Sys2Proof.Machine

/-- Every register at its reset value; IMEM, DMEM and the model's own fields stay (10_state.md R74, R413). -/
def State.resetRegisters (s : State) : State :=
  { State.reset with
    imem := s.imem
    dmem := s.dmem
    draws := s.draws
    powerOn := s.powerOn
    readData := s.readData
    agenda := s.agenda }

/-- A hard reset: every register at its reset value, IMEM and DMEM fresh draws (70_reset_and_hazards.md R410). -/
def State.hardReset (s : State) : State :=
  { s.resetRegisters with imem := [], dmem := [], powerOn := s.powerOn + 1 }

/-- The destination slot of a pack command (70_reset_and_hazards.md R412). -/
def packSlot : Instr → Option (BitVec 8)
  | .fpack _ _ slot => some slot
  | .spack _ _ slot => some slot
  | .gpack _ _ slot => some slot
  | _ => none

/-- `k` draws from [0, 256), from draw number `n` on. -/
def drawBytes (n : Nat) : Nat → List Byte
  | 0 => []
  | k + 1 => Config.draw 8 n :: drawBytes (n + 1) k

/-- What a soft reset does to DMEM when it cuts a run short: if the command at the PC is a pack to an existing slot, that
slot's bytes become draws (70_reset_and_hazards.md R412). -/
def State.cutShort (s : State) : State :=
  match (decode s.fetch).toOption.bind packSlot with
  | none => s
  | some slot =>
    if slotInRange slot then (s.dmemWrite slot (drawBytes s.draws Config.slotBytes)).useDraws Config.slotBytes else s

/-- A soft reset (70_reset_and_hazards.md R411, R412). -/
def State.softReset (s : State) : State :=
  (if s.busy then s.cutShort else s).resetRegisters

/-- START (60_exceptions.md R375). -/
def State.start (s : State) : State :=
  if s.busy then { s with herr := true }
  else
    { s with
      done := false
      err := false
      errcode := 0
      errpc := 0
      errword := 0
      retired := 0
      busy := true }

/-- A write to CTRL, applied in the order of 10_state.md R62. -/
def State.writeCtrl (s : State) (w : Word) : State :=
  if w.getLsbD 1 then s.softReset
  else
    let t := { s with ieDone := w.getLsbD 2, ieErr := w.getLsbD 3 }
    if w.getLsbD 0 then t.start else t

/-- A write to STATUS: writing 1 clears DONE, ERR and HERR (10_state.md R63). -/
def State.writeStatus (s : State) (w : Word) : State :=
  { s with
    done := s.done && !w.getLsbD 1
    err := s.err && !w.getLsbD 2
    herr := s.herr && !w.getLsbD 3 }

/-- A write that is refused while Running, when it only sets HERR (20_memory.md R107). -/
def State.idleWrite (s : State) (t : State) : State := if s.busy then { s with herr := true } else t

/-- The four DMEM bytes of a host word, lowest first (20_memory.md R103). -/
def bytesOfWord (w : Word) : List Byte := leBytes w.toNat 4

/-- The host word at DMEM byte address `a` (20_memory.md R103). -/
def State.dmemWord (s : State) (a : Nat) : Word := BitVec.ofNat 32 (leInt (s.dmemBytes a 4))

/-- A host write of the form of 20_memory.md R106, at a window offset (10_state.md R60 to R73, 20_memory.md R107). -/
def State.hostWrite (s : State) (off : Nat) (w : Word) : State :=
  if off = 0x004 then s.writeCtrl w
  else if off = 0x008 then s.writeStatus w
  else if off = 0x00C then s.idleWrite { s with pc := w.setWidth 8 }
  else if off = 0x018 then s.idleWrite { s with b := Vector.ofFn fun i => w.getLsbD i }
  else if off < 0x400 then s
  else if off < 0x800 then s.idleWrite (s.imemWrite ((off - 0x400) / 4) w)
  else s.idleWrite { s with dmem := Memory.writeRun s.dmem (off - 0x800) (bytesOfWord w) }

/-- The window returns a word to the host (log entry 5). -/
def State.returning (s : State) (w : Word) : State := { s with readData := w }

/-- A host read that returns draw([0, 2^w)) in its low bits (20_memory.md R106, R107). -/
def State.returningDraw (s : State) (w : Nat) : State :=
  (s.returning ((Config.draw w s.draws).setWidth 32)).useDraws 1

/-- A host read of the form of 20_memory.md R106, at a window offset (10_state.md R60 to R73, 20_memory.md R107). -/
def State.hostRead (s : State) (off : Nat) : State :=
  if off = 0x000 then s.returning Config.idValue
  else if off = 0x004 then s.returning s.ctrlWord
  else if off = 0x008 then s.returning s.statusWord
  else if off = 0x00C then s.returning (s.pc.setWidth 32)
  else if off = 0x010 then s.returning (s.errpc.setWidth 32)
  else if off = 0x014 then s.returning s.errword
  else if off = 0x018 then if s.busy then s.returningDraw 16 else s.returning s.bregWord
  else if off = 0x01C then if s.busy then s.returningDraw 32 else s.returning s.fsvalidWord
  else if off = 0x020 then if s.busy then s.returningDraw 32 else s.returning s.gvalidWord
  else if off = 0x024 then s.returning s.retired
  else if off < 0x400 then s.returning 0
  else if off < 0x800 then
    if s.busy then { s.returningDraw 32 with herr := true } else s.returning (s.imemWord ((off - 0x400) / 4))
  else if s.busy then { s.returningDraw 32 with herr := true } else s.returning (s.dmemWord (off - 0x800))

/-- An access of the form of 20_memory.md R106: an aligned 32-bit word; log entry 15. -/
def aligned (off bytes : Nat) : Bool := bytes == 4 && off % 4 == 0

/-- A host read of any form: one that is no aligned word returns a draw and sets HERR (20_memory.md R106). -/
def State.hostReadAny (s : State) (off bytes : Nat) : State :=
  if aligned off bytes then s.hostRead off else { s.returningDraw 32 with herr := true }

/-- A host write of any form: one that is no aligned word is ignored and sets HERR (20_memory.md R106). -/
def State.hostWriteAny (s : State) (off bytes : Nat) (w : Word) : State :=
  if aligned off bytes then s.hostWrite off w else { s with herr := true }

/-- The window offset a bus address reaches (20_memory.md R101). -/
def windowOffset (addr : Nat) : Option Nat :=
  if Config.mmioBase ≤ addr ∧ addr < Config.mmioBase + Config.mmioSize then some (addr - Config.mmioBase) else none

/-- One engine step, when the phase is Running: fetch, decode, and run the command, or raise ILLEGAL; Idle it executes
nothing (10_state.md R41, 40_control.md R170).  `run` is the dispatch; log entries 11 and 13. -/
def engineStep (run : Instr → State → Result) (s : State) : Result :=
  if s.busy then
    match decode s.fetch with
    | .error _ => raise .illegal s
    | .ok i => run i s
  else .next s

/-- An access to the window, or the fault of one that is outside it (log entry 6). -/
def atWindow (addr : Nat) (access : Nat → State) : Result :=
  match windowOffset addr with
  | none => .fault .outsideWindow
  | some off => .next (access off)

/-- One event of the agenda (log entry 4). -/
def perform (run : Instr → State → Result) (e : Event) (s : State) : Result :=
  match e with
  | .read addr bytes => atWindow addr fun off => s.hostReadAny off bytes
  | .write addr bytes data => atWindow addr fun off => s.hostWriteAny off bytes data
  | .hardReset => .next s.hardReset
  | .engineTurn => engineStep run s

/-- One step of host and engine: the agenda's first event, or an engine step where the agenda is empty (log entry 4). -/
def stepWith (run : Instr → State → Result) (s : State) : Result :=
  match s.agenda with
  | [] => engineStep run s
  | e :: rest => perform run e { s with agenda := rest }

/-- Store the `nbits`-bit word `w` where the next fetch reads it and let the engine be the next to move, Running: what a
host's load of IMEM and its START do (70_reset_and_hazards.md R414); log entry 7. -/
def State.placeCommand (s : State) (nbits w : Nat) : State :=
  { s.imemWrite s.pc.toNat (BitVec.ofNat 32 (w % 2 ^ nbits)) with busy := true, agenda := [] }

end Sys2Proof.Machine
end

