-- ==== Sys2Proof/Machine/Step.lean ====
section
/-! DEFINITION. The step, and where a word must stand for the next step to run it.  Both only call the sequencing of
Machine/Host.lean. -/

namespace Sys2Proof.Machine

/-- One step of the machine (10_state.md R41, 40_control.md R170, 20_memory.md R116). -/
def step (s : State) : Host.Outcome State Fault Refusal := stepWith exec s

/-- `s` with the table word `w` placed so that the next step runs it (log entry 7). -/
def State.withFetchWord (s : State) (nbits w : Nat) : State := s.placeCommand nbits w

end Sys2Proof.Machine
end

