-- ==== Sys2Proof/Safety.lean ====
section
/-! DEFINITION. The terms the claims use: which registers a command names as sources and as destinations
(30_encoding.md R151), what a command leaves unchanged, the invariants of a safe run, and runs. -/

namespace Sys2Proof.Safety

open Sys2Proof.Machine

/-- A register that a command names in a source field (10_state.md R45). -/
inductive Source where
  | f (i : FReg)
  | s (i : SReg)
  | g (i : GReg)
deriving DecidableEq, Repr

/-- The sources of GMSM: G[a], S[b] and the n-1 pairs after them (43_group.md R339). -/
def gmsmSources (a b : Nat) : Nat → List Source
  | 0 => []
  | n + 1 => .g (Fin.ofNat 16 a) :: .s (Fin.ofNat 16 b) :: gmsmSources (a + 1) (b + 1) n

/-- The registers a command names in source fields, as 30_encoding.md R151 marks them (`src` and `dst+src`). -/
def sources : Instr → List Source
  | .nop _ => []
  | .halt _ => []
  | .funpack _ _ _ => []
  | .fpack _ ra _ => [.f ra]
  | .fadd _ _ ra rb => [.f ra, .f rb]
  | .fsub _ _ ra rb => [.f ra, .f rb]
  | .fneg _ _ ra => [.f ra]
  | .fdbl _ _ ra => [.f ra]
  | .ftrpl _ _ ra => [.f ra]
  | .fmul _ _ ra rb => [.f ra, .f rb]
  | .fsqr _ _ ra => [.f ra]
  | .fsqr2 _ _ ra => [.f ra]
  | .finv _ _ ra => [.f ra]
  | .fpow2523 _ _ ra => [.f ra]
  | .finvsqrt _ _ ra => [.f ra]
  | .fsqrt _ _ ra => [.f ra]
  | .finvsqrti _ _ ra _ => [.f ra]
  | .fsqrti _ _ ra _ => [.f ra]
  | .fiszero _ _ ra => [.f ra]
  | .fisone _ _ ra => [.f ra]
  | .fisneg _ _ ra => [.f ra]
  | .fiseq _ _ ra rb => [.f ra, .f rb]
  | .fcmov _ rd ra _ => [.f rd, .f ra]
  | .fabs _ _ ra => [.f ra]
  | .sunpack _ _ _ => []
  | .sunpack64 _ _ _ => []
  | .spack _ ra _ => [.s ra]
  | .sadd _ _ ra rb => [.s ra, .s rb]
  | .ssub _ _ ra rb => [.s ra, .s rb]
  | .sneg _ _ ra => [.s ra]
  | .smul _ _ ra rb => [.s ra, .s rb]
  | .ssqr _ _ ra => [.s ra]
  | .sinv _ _ ra => [.s ra]
  | .siszero _ _ ra => [.s ra]
  | .sisone _ _ ra => [.s ra]
  | .seq _ _ ra rb => [.s ra, .s rb]
  | .scmov _ rd ra _ => [.s rd, .s ra]
  | .gunpack _ _ _ _ => []
  | .gpack _ ra _ => [.g ra]
  | .gadd _ _ ra rb => [.g ra, .g rb]
  | .gdbl _ _ ra => [.g ra]
  | .gneg _ _ ra => [.g ra]
  | .gsmul _ _ ra rb => [.g ra, .s rb]
  | .gsmulb _ _ rb => [.s rb]
  | .gmsm _ _ ra rb n => gmsmSources ra.val rb.val n.toNat
  | .geq _ _ ra rb => [.g ra, .g rb]
  | .gisneutral _ _ ra => [.g ra]
  | .gneutral _ _ => []
  | .gbase _ _ => []
  | .gelligator _ _ ra => [.f ra]
  | .gcmov _ rd ra _ => [.g rd, .g ra]

/-- The F register a command names as destination (30_encoding.md R151). -/
def destF : Instr → Option FReg
  | .nop _ => none
  | .halt _ => none
  | .funpack _ rd _ => some rd
  | .fpack _ _ _ => none
  | .fadd _ rd _ _ => some rd
  | .fsub _ rd _ _ => some rd
  | .fneg _ rd _ => some rd
  | .fdbl _ rd _ => some rd
  | .ftrpl _ rd _ => some rd
  | .fmul _ rd _ _ => some rd
  | .fsqr _ rd _ => some rd
  | .fsqr2 _ rd _ => some rd
  | .finv _ rd _ => some rd
  | .fpow2523 _ rd _ => some rd
  | .finvsqrt _ rd _ => some rd
  | .fsqrt _ rd _ => some rd
  | .finvsqrti _ rd _ _ => some rd
  | .fsqrti _ rd _ _ => some rd
  | .fiszero _ _ _ => none
  | .fisone _ _ _ => none
  | .fisneg _ _ _ => none
  | .fiseq _ _ _ _ => none
  | .fcmov _ rd _ _ => some rd
  | .fabs _ rd _ => some rd
  | .sunpack _ _ _ => none
  | .sunpack64 _ _ _ => none
  | .spack _ _ _ => none
  | .sadd _ _ _ _ => none
  | .ssub _ _ _ _ => none
  | .sneg _ _ _ => none
  | .smul _ _ _ _ => none
  | .ssqr _ _ _ => none
  | .sinv _ _ _ => none
  | .siszero _ _ _ => none
  | .sisone _ _ _ => none
  | .seq _ _ _ _ => none
  | .scmov _ _ _ _ => none
  | .gunpack _ _ _ _ => none
  | .gpack _ _ _ => none
  | .gadd _ _ _ _ => none
  | .gdbl _ _ _ => none
  | .gneg _ _ _ => none
  | .gsmul _ _ _ _ => none
  | .gsmulb _ _ _ => none
  | .gmsm _ _ _ _ _ => none
  | .geq _ _ _ _ => none
  | .gisneutral _ _ _ => none
  | .gneutral _ _ => none
  | .gbase _ _ => none
  | .gelligator _ _ _ => none
  | .gcmov _ _ _ _ => none

/-- The S register a command names as destination (30_encoding.md R151). -/
def destS : Instr → Option SReg
  | .nop _ => none
  | .halt _ => none
  | .funpack _ _ _ => none
  | .fpack _ _ _ => none
  | .fadd _ _ _ _ => none
  | .fsub _ _ _ _ => none
  | .fneg _ _ _ => none
  | .fdbl _ _ _ => none
  | .ftrpl _ _ _ => none
  | .fmul _ _ _ _ => none
  | .fsqr _ _ _ => none
  | .fsqr2 _ _ _ => none
  | .finv _ _ _ => none
  | .fpow2523 _ _ _ => none
  | .finvsqrt _ _ _ => none
  | .fsqrt _ _ _ => none
  | .finvsqrti _ _ _ _ => none
  | .fsqrti _ _ _ _ => none
  | .fiszero _ _ _ => none
  | .fisone _ _ _ => none
  | .fisneg _ _ _ => none
  | .fiseq _ _ _ _ => none
  | .fcmov _ _ _ _ => none
  | .fabs _ _ _ => none
  | .sunpack _ rd _ => some rd
  | .sunpack64 _ rd _ => some rd
  | .spack _ _ _ => none
  | .sadd _ rd _ _ => some rd
  | .ssub _ rd _ _ => some rd
  | .sneg _ rd _ => some rd
  | .smul _ rd _ _ => some rd
  | .ssqr _ rd _ => some rd
  | .sinv _ rd _ => some rd
  | .siszero _ _ _ => none
  | .sisone _ _ _ => none
  | .seq _ _ _ _ => none
  | .scmov _ rd _ _ => some rd
  | .gunpack _ _ _ _ => none
  | .gpack _ _ _ => none
  | .gadd _ _ _ _ => none
  | .gdbl _ _ _ => none
  | .gneg _ _ _ => none
  | .gsmul _ _ _ _ => none
  | .gsmulb _ _ _ => none
  | .gmsm _ _ _ _ _ => none
  | .geq _ _ _ _ => none
  | .gisneutral _ _ _ => none
  | .gneutral _ _ => none
  | .gbase _ _ => none
  | .gelligator _ _ _ => none
  | .gcmov _ _ _ _ => none

/-- The G register a command names as destination (30_encoding.md R151). -/
def destG : Instr → Option GReg
  | .nop _ => none
  | .halt _ => none
  | .funpack _ _ _ => none
  | .fpack _ _ _ => none
  | .fadd _ _ _ _ => none
  | .fsub _ _ _ _ => none
  | .fneg _ _ _ => none
  | .fdbl _ _ _ => none
  | .ftrpl _ _ _ => none
  | .fmul _ _ _ _ => none
  | .fsqr _ _ _ => none
  | .fsqr2 _ _ _ => none
  | .finv _ _ _ => none
  | .fpow2523 _ _ _ => none
  | .finvsqrt _ _ _ => none
  | .fsqrt _ _ _ => none
  | .finvsqrti _ _ _ _ => none
  | .fsqrti _ _ _ _ => none
  | .fiszero _ _ _ => none
  | .fisone _ _ _ => none
  | .fisneg _ _ _ => none
  | .fiseq _ _ _ _ => none
  | .fcmov _ _ _ _ => none
  | .fabs _ _ _ => none
  | .sunpack _ _ _ => none
  | .sunpack64 _ _ _ => none
  | .spack _ _ _ => none
  | .sadd _ _ _ _ => none
  | .ssub _ _ _ _ => none
  | .sneg _ _ _ => none
  | .smul _ _ _ _ => none
  | .ssqr _ _ _ => none
  | .sinv _ _ _ => none
  | .siszero _ _ _ => none
  | .sisone _ _ _ => none
  | .seq _ _ _ _ => none
  | .scmov _ _ _ _ => none
  | .gunpack _ rd _ _ => some rd
  | .gpack _ _ _ => none
  | .gadd _ rd _ _ => some rd
  | .gdbl _ rd _ => some rd
  | .gneg _ rd _ => some rd
  | .gsmul _ rd _ _ => some rd
  | .gsmulb _ rd _ => some rd
  | .gmsm _ rd _ _ _ => some rd
  | .geq _ _ _ _ => none
  | .gisneutral _ _ _ => none
  | .gneutral _ rd => some rd
  | .gbase _ rd => some rd
  | .gelligator _ rd _ => some rd
  | .gcmov _ rd _ _ => some rd

/-- The B register a command names as destination (30_encoding.md R151). -/
def destB : Instr → Option BReg
  | .nop _ => none
  | .halt _ => none
  | .funpack _ _ _ => none
  | .fpack _ _ _ => none
  | .fadd _ _ _ _ => none
  | .fsub _ _ _ _ => none
  | .fneg _ _ _ => none
  | .fdbl _ _ _ => none
  | .ftrpl _ _ _ => none
  | .fmul _ _ _ _ => none
  | .fsqr _ _ _ => none
  | .fsqr2 _ _ _ => none
  | .finv _ _ _ => none
  | .fpow2523 _ _ _ => none
  | .finvsqrt _ _ _ => none
  | .fsqrt _ _ _ => none
  | .finvsqrti _ _ _ rc => some rc
  | .fsqrti _ _ _ rc => some rc
  | .fiszero _ rd _ => some rd
  | .fisone _ rd _ => some rd
  | .fisneg _ rd _ => some rd
  | .fiseq _ rd _ _ => some rd
  | .fcmov _ _ _ _ => none
  | .fabs _ _ _ => none
  | .sunpack _ _ _ => none
  | .sunpack64 _ _ _ => none
  | .spack _ _ _ => none
  | .sadd _ _ _ _ => none
  | .ssub _ _ _ _ => none
  | .sneg _ _ _ => none
  | .smul _ _ _ _ => none
  | .ssqr _ _ _ => none
  | .sinv _ _ _ => none
  | .siszero _ rd _ => some rd
  | .sisone _ rd _ => some rd
  | .seq _ rd _ _ => some rd
  | .scmov _ _ _ _ => none
  | .gunpack _ _ rc _ => some rc
  | .gpack _ _ _ => none
  | .gadd _ _ _ _ => none
  | .gdbl _ _ _ => none
  | .gneg _ _ _ => none
  | .gsmul _ _ _ _ => none
  | .gsmulb _ _ _ => none
  | .gmsm _ _ _ _ _ => none
  | .geq _ rd _ _ => some rd
  | .gisneutral _ rd _ => some rd
  | .gneutral _ _ => none
  | .gbase _ _ => none
  | .gelligator _ _ _ => none
  | .gcmov _ _ _ _ => none

/-- The source is Unwritten (10_state.md R45). -/
def unwritten (s : State) : Source → Bool
  | .f i => s.f[i] == none
  | .s i => s.sc[i] == none
  | .g i => s.g[i] == .unwritten

/-- The source holds Poison (10_state.md R45). -/
def poisoned (s : State) : Source → Bool
  | .f _ => false
  | .s _ => false
  | .g i => s.g[i] == .poison

/-- The command is HALT. -/
def isHalt : Instr → Bool
  | .halt _ => true
  | _ => false

/-- `t` is `s` stopped by the error `e`, with no other effect (60_exceptions.md R377, R378). -/
def StoppedBy (e : EngineError) (s t : State) : Prop :=
  t = { s with errcode := errorCode e, errpc := s.pc, errword := s.imemWord s.pc.toNat, err := true, busy := false }

/-- From `s` to `t`, register `i` of a file took the value `v` and every other register of it kept its own. -/
def Wrote {α : Type} (s t : Vector α 16) (i : Fin 16) (v : α) : Prop :=
  t[i] = v ∧ ∀ j : Fin 16, j ≠ i → t[j] = s[j]

/-- Every byte of DMEM and every word of IMEM reads as before. -/
def SameMemory (s t : State) : Prop :=
  (∀ a, t.dmemByte a = s.dmemByte a) ∧ ∀ k, t.imemWord k = s.imemWord k

/-- Every byte of DMEM outside the slot reads as before, and so does every word of IMEM. -/
def SameMemoryBut (slot : BitVec 8) (s t : State) : Prop :=
  (∀ a, (a < 32 * slot.toNat ∨ 32 * slot.toNat + 32 ≤ a) → t.dmemByte a = s.dmemByte a) ∧
    ∀ k, t.imemWord k = s.imemWord k

/-- What no command touches: the interrupt enables, HERR, DONE, and the model's record of the outside. -/
def SameShell (s t : State) : Prop :=
  t.ieDone = s.ieDone ∧ t.ieErr = s.ieErr ∧ t.herr = s.herr ∧ t.done = s.done ∧ t.powerOn = s.powerOn ∧
    t.readData = s.readData ∧ t.agenda = s.agenda

/-- A command other than HALT retired between `s` and `t`: RETIRED counts it, and the PC advances or, at 255, the engine
stops with PCOVF (40_control.md R170, R171). -/
def Retired (s t : State) : Prop :=
  t.retired = s.retired + 1 ∧
    (s.pc ≠ 255 → t.pc = s.pc + 1 ∧ t.busy = s.busy ∧ t.err = s.err ∧ t.errcode = s.errcode ∧ t.errpc = s.errpc ∧
      t.errword = s.errword) ∧
    (s.pc = 255 → t.pc = 255 ∧ t.busy = false ∧ t.err = true ∧ t.errcode = 0x05 ∧ t.errpc = 255 ∧
      t.errword = s.imemWord 255)

/-- `t` is `s` after a command that wrote `v` to F[i] and nothing else, and retired. -/
def OnlyF (s t : State) (i : FReg) (v : Fe) : Prop :=
  Wrote s.f t.f i (some v) ∧ t.sc = s.sc ∧ t.g = s.g ∧ t.b = s.b ∧ t.draws = s.draws ∧ SameMemory s t ∧
    SameShell s t ∧ Retired s t

/-- As `OnlyF`, with a flag written to B[c] too. -/
def OnlyFB (s t : State) (i : FReg) (v : Fe) (c : BReg) (x : Bool) : Prop :=
  Wrote s.f t.f i (some v) ∧ t.sc = s.sc ∧ t.g = s.g ∧ Wrote s.b t.b c x ∧ t.draws = s.draws ∧ SameMemory s t ∧
    SameShell s t ∧ Retired s t

/-- As `OnlyF`, with one draw made. -/
def OnlyFDraw (s t : State) (i : FReg) (v : Fe) : Prop :=
  Wrote s.f t.f i (some v) ∧ t.sc = s.sc ∧ t.g = s.g ∧ t.b = s.b ∧ t.draws = s.draws + 1 ∧ SameMemory s t ∧
    SameShell s t ∧ Retired s t

/-- `t` is `s` after a command that wrote `v` to S[i] and nothing else, and retired. -/
def OnlyS (s t : State) (i : SReg) (v : Scalar) : Prop :=
  t.f = s.f ∧ Wrote s.sc t.sc i (some v) ∧ t.g = s.g ∧ t.b = s.b ∧ t.draws = s.draws ∧ SameMemory s t ∧
    SameShell s t ∧ Retired s t

/-- `t` is `s` after a command that wrote `r` to G[i] and nothing else, and retired. -/
def OnlyG (s t : State) (i : GReg) (r : PointReg) : Prop :=
  t.f = s.f ∧ t.sc = s.sc ∧ Wrote s.g t.g i r ∧ t.b = s.b ∧ t.draws = s.draws ∧ SameMemory s t ∧
    SameShell s t ∧ Retired s t

/-- As `OnlyG`, with a flag written to B[c] too. -/
def OnlyGB (s t : State) (i : GReg) (r : PointReg) (c : BReg) (x : Bool) : Prop :=
  t.f = s.f ∧ t.sc = s.sc ∧ Wrote s.g t.g i r ∧ Wrote s.b t.b c x ∧ t.draws = s.draws ∧ SameMemory s t ∧
    SameShell s t ∧ Retired s t

/-- `t` is `s` after a command that wrote `x` to B[i] and nothing else, and retired. -/
def OnlyB (s t : State) (i : BReg) (x : Bool) : Prop :=
  t.f = s.f ∧ t.sc = s.sc ∧ t.g = s.g ∧ Wrote s.b t.b i x ∧ t.draws = s.draws ∧ SameMemory s t ∧
    SameShell s t ∧ Retired s t

/-- `t` is `s` after a command that changed no register, no flag and no memory, and retired. -/
def OnlyRetired (s t : State) : Prop :=
  t.f = s.f ∧ t.sc = s.sc ∧ t.g = s.g ∧ t.b = s.b ∧ t.draws = s.draws ∧ SameMemory s t ∧ SameShell s t ∧ Retired s t

/-- `t` is `s` after a command that stored the integer `v`, little-endian, to the 32 bytes of a slot and nothing else, and
retired.  The bytes stored to are 32*slot to 32*slot+31 (10_state.md R73). -/
def OnlySlot (s t : State) (slot : BitVec 8) (v : Nat) : Prop :=
  t.f = s.f ∧ t.sc = s.sc ∧ t.g = s.g ∧ t.b = s.b ∧ t.draws = s.draws ∧
    (∀ j, j < 32 → (t.dmemByte (32 * slot.toNat + j)).toNat = v / 256 ^ j % 256) ∧ SameMemoryBut slot s t ∧
    SameShell s t ∧ Retired s t

/-- INVARIANT: IMEM and DMEM are in canonical form and hold nothing outside their 256 words and 2048 bytes (log entry 3). -/
def MemoryCanonical (s : State) : Prop := Memory.wf 2048 s.dmem ∧ Memory.wf 256 s.imem

/-- INVARIANT: a run has neither DONE nor ERR set, a stopped engine at most one of them (60_exceptions.md R381); an error
has a nonzero code, and no code above PCOVF is ever written (60_exceptions.md R370). -/
def StatusCoherent (s : State) : Prop :=
  (s.busy = true → s.done = false ∧ s.err = false) ∧ ¬(s.done = true ∧ s.err = true) ∧
    (s.err = true → s.errcode ≠ 0) ∧ s.errcode.toNat ≤ 5

/-- INVARIANT: RETIRED stays at most the PC during a run and at most 256 after it (10_state.md R70). -/
def RetiredBounded (s : State) : Prop :=
  (s.busy = true → s.retired.toNat ≤ s.pc.toNat) ∧ s.retired.toNat ≤ 256

/-- INVARIANT: every point a register holds lies on the curve (10_state.md R44, 43_group.md R326). -/
def PointsOnCurve (s : State) : Prop := ∀ (i : GReg) (P : Pt), s.g[i] = .point P → onCurve P = true

/-- The point lies in 2E, the doubles of the curve's points (43_group.md R348), by a criterion: it lies on the curve, and
1 - y^2 is a square; log entry 18. -/
def InTwoE (P : Pt) : Prop := onCurve P = true ∧ ∃ z : Fe, z * z = 1 - P.y * P.y

/-- INVARIANT: every point a register holds lies in 2E (43_group.md R348). -/
def PointsInTwoE (s : State) : Prop := ∀ (i : GReg) (P : Pt), s.g[i] = .point P → InTwoE P

/-- The engine moves next at `s`, and `u` is `s` less the turn it takes: the agenda is empty, or an engine turn is its first
event (log entry 4). -/
def EngineMoves (s u : State) : Prop :=
  (s.agenda = [] ∧ u = s) ∨ ∃ rest, s.agenda = .engineTurn :: rest ∧ u = { s with agenda := rest }

/-- A run of `k` steps (Host/Core.lean). -/
def runSteps (k : Nat) (s : State) : Result := Host.Core.run Sys2Proof.core k s

end Sys2Proof.Safety
end

