-- ==== Sys2Proof/Certificates/Slice0/Obligations.lean ====
section
/-! DEFINITION. The statements about the machine.  Each docstring says which rule of spec/ the statement comes from. -/

open Sys2Proof Sys2Proof.Machine Sys2Proof.Safety

/-! ### Encoding -/

/-- Decoding the encoding of a command gives the command back, with every operand at every value (30_encoding.md R140,
R151). -/
def Obligations.DecodeInvertsEncode : Prop := ∀ i : Instr, decode (encode i) = .ok i

/-- Each legal word has one meaning, and the command's encoding is that word: no bit of it is dropped
(30_encoding.md R140, R151). -/
def Obligations.EncodeInvertsDecode : Prop := ∀ (w : Word) (i : Instr), decode w = .ok i → encode i = w

/-- The decoder selects a row exactly when the word under the row's mask is the row's match; at most one row is selected;
and a word that selects none raises ILLEGAL with no other effect (30_encoding.md R148). -/
def Obligations.DecodeSelectsTheRowThatMaskAndMatchSelect : Prop :=
  (∀ (w : Word) (i : Instr), decode w = .ok i ↔ ∃ r ∈ rows, w &&& r.mask = r.matchBits ∧ i = r.build (fieldsOf w)) ∧
    (∀ w : Word, ∀ r ∈ rows, ∀ r' ∈ rows, w &&& r.mask = r.matchBits → w &&& r'.mask = r'.matchBits →
      r.mnemonic = r'.mnemonic) ∧
    ∀ s : State, s.busy = true → s.agenda = [] →
      (∀ r ∈ rows, s.imemWord s.pc.toNat &&& r.mask ≠ r.matchBits) → ∃ t, step s = .next t ∧ StoppedBy .illegal s t

/-- The encoding examples of 30_encoding.md R155, both ways. -/
def Obligations.EncodingExamplesOfTheSpec : Prop :=
  (decode 0x24123000 = .ok (.fadd false 1 2 3) ∧ encode (.fadd false 1 2 3) = 0x24123000) ∧
    (decode 0x22010005 = .ok (.fpack false 1 5) ∧ encode (.fpack false 1 5) = 0x22010005) ∧
    (decode 0x62000002 = .ok (.sunpack64 false 0 2) ∧ encode (.sunpack64 false 0 2) = 0x62000002) ∧
    (decode 0x80200709 = .ok (.gunpack false 2 7 9) ∧ encode (.gunpack false 2 7 9) = 0x80200709) ∧
    (decode 0x8E048003 = .ok (.gmsm false 0 4 8 3) ∧ encode (.gmsm false 0 4 8 3) = 0x8E048003) ∧
    (decode 0x02000000 = .ok (.halt false) ∧ encode (.halt false) = 0x02000000)

/-- Flipping bit V of a legal word gives a legal word whose command does the same in every state: no result, no written
register, no error and no PC update changes (30_encoding.md R143).  FINVSQRT and FSQRT are compared under the same draw,
which is the model's, not the spec's (log entry 2). -/
def Obligations.HintBitChangesNothing : Prop :=
  ∀ (w : Word) (i : Instr), decode w = .ok i →
    ∃ j, decode (w ^^^ 0x01000000) = .ok j ∧ ∀ s, exec j s = exec i s

/-! ### Stepping, errors and runs -/

/-- While Running, with nothing waiting outside or with the engine's turn next, a step is `exec` of the command that
IMEM[PC] decodes to, at that state less the turn taken (40_control.md R170; the turn is the model's, log entry 4). -/
def Obligations.StepRunsTheDecodedCommand : Prop :=
  ∀ (s : State) (i : Instr), s.busy = true → decode (s.imemWord s.pc.toNat) = .ok i →
    (s.agenda = [] → step s = exec i s) ∧
      ∀ rest, s.agenda = .engineTurn :: rest → step s = exec i { s with agenda := rest }

/-- Idle, a step in which the engine moves changes nothing but the turn taken: an Idle engine executes nothing
(10_state.md R41).  That such a turn is a step at all, and whose turn it is, is the model's (log entries 11 and 4). -/
def Obligations.IdleEngineExecutesNothing : Prop :=
  ∀ s u : State, s.busy = false → EngineMoves s u → step s = .next u

/-- The outside's next event is performed and leaves the agenda: a host access at window offset `off` is the window's
answer at that offset, one outside the window is the fault `outsideWindow`, the reset input is a hard reset
(20_memory.md R101, R116; the agenda is the model's, log entries 4 and 6). -/
def Obligations.StepPerformsTheNextEvent : Prop :=
  ∀ (s : State) (rest : List Event),
    (∀ off bytes, off < 4096 → s.agenda = .read (Config.mmioBase + off) bytes :: rest →
      step s = .next ({ s with agenda := rest }.hostReadAny off bytes)) ∧
    (∀ off bytes w, off < 4096 → s.agenda = .write (Config.mmioBase + off) bytes w :: rest →
      step s = .next ({ s with agenda := rest }.hostWriteAny off bytes w)) ∧
    (∀ addr bytes, (addr < Config.mmioBase ∨ Config.mmioBase + 4096 ≤ addr) → s.agenda = .read addr bytes :: rest →
      step s = .fault .outsideWindow) ∧
    (∀ addr bytes w, (addr < Config.mmioBase ∨ Config.mmioBase + 4096 ≤ addr) →
      s.agenda = .write addr bytes w :: rest → step s = .fault .outsideWindow) ∧
    (s.agenda = .hardReset :: rest → step s = .next ({ s with agenda := rest }.hardReset))

/-- Every command has a next state, in every state: it stops precisely with RANGE, UNINIT or POISON and has no other
effect, or it is HALT and ends the run, or it retires (60_exceptions.md R377, R378, 40_control.md R170). -/
def Obligations.EveryCommandStopsPreciselyOrRetires : Prop :=
  ∀ (i : Instr) (s : State), ∃ t, exec i s = .next t ∧
    ((StoppedBy .range s t ∨ StoppedBy .uninit s t ∨ StoppedBy .poison s t) ∨
      (isHalt i = true ∧ t = { s with retired := s.retired + 1, pc := s.pc + 1, done := true, busy := false }) ∨
      (isHalt i = false ∧ Retired s t))

/-- The checks of one command in their fixed order: the legality of the word, the immediate ranges, the source reads,
with UNINIT of any source before POISON of any source; a command that passes them all retires (30_encoding.md R150,
10_state.md R45, 60_exceptions.md R376).  `u` is the state less the turn taken; whose turn it is is the model's (log
entry 4). -/
def Obligations.ChecksAreMadeInTheFixedOrder : Prop :=
  ∀ s u : State, s.busy = true → EngineMoves s u →
    (∀ e, decode (s.imemWord s.pc.toNat) = .error e → ∃ t, step s = .next t ∧ StoppedBy .illegal u t) ∧
    ∀ i, decode (s.imemWord s.pc.toNat) = .ok i →
      (wellFormed i = false → ∃ t, step s = .next t ∧ StoppedBy .range u t) ∧
      (wellFormed i = true → (∃ r ∈ sources i, unwritten s r = true) → ∃ t, step s = .next t ∧ StoppedBy .uninit u t) ∧
      (wellFormed i = true → (∀ r ∈ sources i, unwritten s r = false) → (∃ r ∈ sources i, poisoned s r = true) →
        ∃ t, step s = .next t ∧ StoppedBy .poison u t) ∧
      (wellFormed i = true → (∀ r ∈ sources i, unwritten s r = false) → (∀ r ∈ sources i, poisoned s r = false) →
        ∃ t, step s = .next t ∧ t.retired = s.retired + 1)

/-- A command other than HALT that retires at PC = 255 has the full effect it has at any other PC, and RETIRED counts it;
then the engine stops with PCOVF.  Nothing else raises an error after a command has taken effect (40_control.md R171).  The
effect is compared under the same draw, which is the model's, not the spec's (log entry 2). -/
def Obligations.PcovfStopsAfterTheFullEffect : Prop :=
  (∀ (i : Instr) (s t u : State) (q : BitVec 8), isHalt i = false → s.pc = 255 → q ≠ 255 → exec i s = .next t →
    exec i { s with pc := q } = .next u → u.retired = s.retired + 1 →
      t.f = u.f ∧ t.sc = u.sc ∧ t.g = u.g ∧ t.b = u.b ∧ t.dmem = u.dmem ∧ t.imem = u.imem ∧ t.draws = u.draws ∧
        t.retired = s.retired + 1 ∧ t.err = true ∧ t.busy = false ∧ t.errcode = 0x05 ∧ t.errpc = 255 ∧
        t.errword = s.imemWord 255 ∧ t.pc = 255) ∧
    ∀ (i : Instr) (s t : State), isHalt i = true ∨ s.pc ≠ 255 → exec i s = .next t → t.retired = s.retired + 1 →
      t.err = s.err ∧ t.errcode = s.errcode ∧ t.errpc = s.errpc ∧ t.errword = s.errword

/-- NOP changes no register and retires; HALT counts itself, advances the PC modulo 256, sets DONE and ends the run
(40_control.md R175, R176). -/
def Obligations.NopAndHaltComplete : Prop :=
  ∀ (v : Bool) (s : State),
    (∃ t, exec (.nop v) s = .next t ∧ OnlyRetired s t) ∧
      exec (.halt v) s =
        .next { s with retired := s.retired + 1, pc := s.pc + 1, done := true, busy := false }

/-- With the outside quiet, every run ends within 256 - PC steps: with a HALT, which sets DONE, or with an error or PCOVF,
which sets ERR and a code of 60_exceptions.md R370 (40_control.md R174).  That the outside is quiet is an empty agenda,
which is the model's (log entry 4). -/
def Obligations.EveryRunEndsWithinItsBound : Prop :=
  ∀ s : State, s.busy = true → s.agenda = [] →
    ∃ k t, k ≤ 256 - s.pc.toNat ∧ runSteps k s = .next t ∧ t.busy = false ∧
      ((t.done = true ∧ t.err = s.err) ∨ (t.err = true ∧ t.done = s.done ∧ 1 ≤ t.errcode.toNat ∧ t.errcode.toNat ≤ 5))

/-! ### Invariants -/

/-- The five invariants hold right after reset (10_state.md R74). -/
def Obligations.InvariantsHoldAtReset : Prop :=
  MemoryCanonical State.reset ∧ StatusCoherent State.reset ∧ RetiredBounded State.reset ∧ PointsOnCurve State.reset ∧
    PointsInTwoE State.reset

/-- Every step keeps IMEM and DMEM in canonical form within their bounds (10_state.md R72, R73; the form is the model's,
log entry 3). -/
def Obligations.EveryStepKeepsMemoryCanonical : Prop :=
  ∀ s t : State, MemoryCanonical s → step s = .next t → MemoryCanonical t

/-- Every step keeps the status bits coherent: a run ends in exactly one way (60_exceptions.md R381), and the error code
goes with the error (60_exceptions.md R370). -/
def Obligations.EveryStepKeepsStatusCoherent : Prop :=
  ∀ s t : State, StatusCoherent s → step s = .next t → StatusCoherent t

/-- Every step keeps RETIRED within its bound: the count cannot pass 256 within one run (10_state.md R70). -/
def Obligations.EveryStepKeepsRetiredBounded : Prop :=
  ∀ s t : State, RetiredBounded s → step s = .next t → RetiredBounded t

/-- Every step keeps every point register on the curve: well-formed group inputs are a hardware invariant
(10_state.md R44, 43_group.md R326, R330). -/
def Obligations.EveryStepKeepsPointsOnCurve : Prop :=
  ∀ s t : State, PointsOnCurve s → step s = .next t → PointsOnCurve t

/-! ### What no command changes -/

/-- No command writes IMEM (20_memory.md R121, 10_state.md R72). -/
def Obligations.NoCommandWritesImem : Prop :=
  ∀ (i : Instr) (s t : State), exec i s = .next t → t.imem = s.imem ∧ ∀ k, t.imemWord k = s.imemWord k

/-- A command changes DMEM only in the slot a pack command names (10_state.md R73, 20_memory.md R108). -/
def Obligations.DmemChangesOnlyInThePackedSlot : Prop :=
  ∀ (i : Instr) (s t : State) (a : Nat), exec i s = .next t →
    (∀ slot, packSlot i = some slot → a < 32 * slot.toNat ∨ 32 * slot.toNat + 32 ≤ a) → t.dmemByte a = s.dmemByte a

/-- A register of any file changes only where the command names it as a destination (10_state.md R42, R43, R44, R46). -/
def Obligations.RegistersChangeOnlyAsDestinations : Prop :=
  ∀ (i : Instr) (s t : State), exec i s = .next t →
    (∀ j : FReg, destF i ≠ some j → t.f[j] = s.f[j]) ∧ (∀ j : SReg, destS i ≠ some j → t.sc[j] = s.sc[j]) ∧
      (∀ j : GReg, destG i ≠ some j → t.g[j] = s.g[j]) ∧ ∀ j : BReg, destB i ≠ some j → t.b[j] = s.b[j]

/-- No command touches the interrupt enables, HERR or the model's record of the outside (log entries 3 to 5), and only HALT
touches DONE (40_control.md R173, 60_exceptions.md R374, R381). -/
def Obligations.CommandsLeaveTheShellAlone : Prop :=
  ∀ (i : Instr) (s t : State), exec i s = .next t →
    t.ieDone = s.ieDone ∧ t.ieErr = s.ieErr ∧ t.herr = s.herr ∧ t.powerOn = s.powerOn ∧ t.readData = s.readData ∧
      t.agenda = s.agenda ∧ (isHalt i = false → t.done = s.done)

/-! ### The field unit -/

/-- FUNPACK loads the slot's integer modulo 2^255 modulo p; FPACK stores the canonical bytes (41_field.md R192, R193, R200,
R201). -/
def Obligations.FieldLoadAndStore : Prop :=
  ∀ (s : State) (v : Bool) (slot : BitVec 8), slot.toNat ≤ 63 →
    (∀ rd : FReg, ∃ t r, exec (.funpack v rd slot) s = .next t ∧ OnlyF s t rd r ∧
      r.val = (∑ j ∈ Finset.range 32, (s.dmemByte (32 * slot.toNat + j)).toNat * 256 ^ j) % 2 ^ 255 % fieldPrime) ∧
    ∀ (ra : FReg) (a : Fe), s.f[ra] = some a →
      ∃ t, exec (.fpack v ra slot) s = .next t ∧ OnlySlot s t slot a.val

/-- FADD, FSUB and FMUL write the exact result modulo p and nothing else (41_field.md R202, R203, R207, R225). -/
def Obligations.FieldAddSubMulResults : Prop :=
  ∀ (s : State) (v : Bool) (rd ra rb : FReg) (a b : Fe), s.f[ra] = some a → s.f[rb] = some b →
    (∃ t r, exec (.fadd v rd ra rb) s = .next t ∧ OnlyF s t rd r ∧ r.val = (a.val + b.val) % fieldPrime) ∧
    (∃ t r, exec (.fsub v rd ra rb) s = .next t ∧ OnlyF s t rd r ∧ (r.val + b.val) % fieldPrime = a.val) ∧
    ∃ t r, exec (.fmul v rd ra rb) s = .next t ∧ OnlyF s t rd r ∧ r.val = a.val * b.val % fieldPrime

/-- FNEG, FDBL, FTRPL, FSQR, FSQR2 and FABS write the exact result modulo p and nothing else (41_field.md R204, R205, R206,
R208, R209, R221). -/
def Obligations.FieldOneSourceResults : Prop :=
  ∀ (s : State) (v : Bool) (rd ra : FReg) (a : Fe), s.f[ra] = some a →
    (∃ t r, exec (.fneg v rd ra) s = .next t ∧ OnlyF s t rd r ∧ (r.val + a.val) % fieldPrime = 0) ∧
    (∃ t r, exec (.fdbl v rd ra) s = .next t ∧ OnlyF s t rd r ∧ r.val = 2 * a.val % fieldPrime) ∧
    (∃ t r, exec (.ftrpl v rd ra) s = .next t ∧ OnlyF s t rd r ∧ r.val = 3 * a.val % fieldPrime) ∧
    (∃ t r, exec (.fsqr v rd ra) s = .next t ∧ OnlyF s t rd r ∧ r.val = a.val ^ 2 % fieldPrime) ∧
    (∃ t r, exec (.fsqr2 v rd ra) s = .next t ∧ OnlyF s t rd r ∧ r.val = 2 * a.val ^ 2 % fieldPrime) ∧
    ∃ t r, exec (.fabs v rd ra) s = .next t ∧ OnlyF s t rd r ∧ r.val % 2 = 0 ∧
      r.val = if a.val % 2 = 1 then fieldPrime - a.val else a.val

/-- FINV writes a^(p-2), which is the inverse of a nonzero a and 0 for 0, and FPOW2523 writes a^(2^252-3)
(41_field.md R210, R211). -/
def Obligations.FieldPowerResults : Prop :=
  ∀ (s : State) (v : Bool) (rd ra : FReg) (a : Fe), s.f[ra] = some a →
    (∃ t r, exec (.finv v rd ra) s = .next t ∧ OnlyF s t rd r ∧ r.val = a.val ^ (fieldPrime - 2) % fieldPrime ∧
      (a ≠ 0 → r * a = 1) ∧ (a = 0 → r = 0)) ∧
    ∃ t r, exec (.fpow2523 v rd ra) s = .next t ∧ OnlyF s t rd r ∧ r.val = a.val ^ (2 ^ 252 - 3) % fieldPrime

/-- FINVSQRT writes an inverse square root of a nonzero square, and FSQRT a root of every square and 0 for 0.  Which root,
and what a non-square gives, is a draw and is not stated (41_field.md R212, R213); each counts as one draw, which is the
model's count (log entry 2). -/
def Obligations.SquareRootDrawsAreRoots : Prop :=
  ∀ (s : State) (v : Bool) (rd ra : FReg) (a : Fe), s.f[ra] = some a →
    ∃ t u r q, exec (.finvsqrt v rd ra) s = .next t ∧ OnlyFDraw s t rd r ∧
      exec (.fsqrt v rd ra) s = .next u ∧ OnlyFDraw s u rd q ∧
      (a ≠ 0 → (∃ x : Fe, x * x = a) → r * r * a = 1) ∧ ((∃ x : Fe, x * x = a) → q * q = a) ∧ (a = 0 → q = 0)

/-- FINVSQRTI and FSQRTI: the flag says whether the source is a nonzero square; the result is the nonnegative root of 1/a
or of SQRT_M1/a, times a for FSQRTI; both give 0 and flag 0 for 0 (41_field.md R214, R215). -/
def Obligations.SquareRootsWithFlag : Prop :=
  ∀ (s : State) (v : Bool) (rd ra : FReg) (rc : BReg) (a : Fe), s.f[ra] = some a →
    ∃ t u r x, exec (.finvsqrti v rd ra rc) s = .next t ∧ OnlyFB s t rd r rc x ∧
      exec (.fsqrti v rd ra rc) s = .next u ∧ OnlyFB s u rd (r * a) rc x ∧
      (x = true ↔ a ≠ 0 ∧ ∃ y : Fe, y * y = a) ∧ r.val % 2 = 0 ∧ (x = true → r * r * a = 1) ∧
      (x = false → a ≠ 0 → r * r * a = sqrtM1) ∧ (a = 0 → r = 0)

/-- The four cases of SQRT_RATIO_M1, exactly one of which applies, each with its unique nonnegative value
(41_field.md R195). -/
def Obligations.SqrtRatioCases : Prop :=
  ∀ u v : Fe,
    (u = 0 → sqrtRatioM1 u v = (true, 0)) ∧
    (u ≠ 0 → v = 0 → sqrtRatioM1 u v = (false, 0)) ∧
    (u ≠ 0 → v ≠ 0 → (∃ x : Fe, v * (x * x) = u) →
      ∃ r, sqrtRatioM1 u v = (true, r) ∧ ∀ z : Fe, (v * (z * z) = u ∧ z.val % 2 = 0) ↔ z = r) ∧
    (u ≠ 0 → v ≠ 0 → (¬∃ x : Fe, v * (x * x) = u) →
      ∃ r, sqrtRatioM1 u v = (false, r) ∧ ∀ z : Fe, (v * (z * z) = sqrtM1 * u ∧ z.val % 2 = 0) ↔ z = r)

/-- FISZERO, FISONE, FISNEG and FISEQ write their flag and nothing else (41_field.md R216 to R219). -/
def Obligations.FieldPredicateFlags : Prop :=
  ∀ (s : State) (v : Bool) (rd : BReg) (ra rb : FReg) (a b : Fe), s.f[ra] = some a → s.f[rb] = some b →
    (∃ t, exec (.fiszero v rd ra) s = .next t ∧ OnlyB s t rd (decide (a = 0))) ∧
    (∃ t, exec (.fisone v rd ra) s = .next t ∧ OnlyB s t rd (decide (a = 1))) ∧
    (∃ t, exec (.fisneg v rd ra) s = .next t ∧ OnlyB s t rd (decide (a.val % 2 = 1))) ∧
    ∃ t, exec (.fiseq v rd ra rb) s = .next t ∧ OnlyB s t rd (decide (a = b))

/-- FCMOV, SCMOV and GCMOV write the source if the selector is 1 and the destination's own value if it is 0, and nothing
else (41_field.md R220, 42_scalar.md R284, 43_group.md R345). -/
def Obligations.ConditionalMovesSelect : Prop :=
  ∀ (s : State) (v : Bool) (rd ra : Fin 16) (rc : BReg),
    (∀ d a : Fe, s.f[rd] = some d → s.f[ra] = some a →
      ∃ t, exec (.fcmov v rd ra rc) s = .next t ∧ OnlyF s t rd (if s.b[rc] = true then a else d)) ∧
    (∀ d a : Scalar, s.sc[rd] = some d → s.sc[ra] = some a →
      ∃ t, exec (.scmov v rd ra rc) s = .next t ∧ OnlyS s t rd (if s.b[rc] = true then a else d)) ∧
    ∀ d a : Pt, s.g[rd] = .point d → s.g[ra] = .point a →
      ∃ t, exec (.gcmov v rd ra rc) s = .next t ∧ OnlyG s t rd (.point (if s.b[rc] = true then a else d))

/-- The field round trips: FPACK, FUNPACK and FPACK again write the same bytes; and for every 32 bytes, FUNPACK then FPACK
write the integer's residue, which are those bytes exactly when they are canonical (41_field.md R229). -/
def Obligations.FieldRoundTrip : Prop :=
  ∀ (s : State) (v : Bool) (rd ra : FReg) (n m : BitVec 8), n.toNat ≤ 63 → m.toNat ≤ 63 →
    (∀ a : Fe, s.f[ra] = some a →
      ∃ t u x, exec (.fpack v ra n) s = .next t ∧ exec (.funpack v rd n) t = .next u ∧ exec (.fpack v rd m) u = .next x ∧
        ∀ j, j < 32 → x.dmemByte (32 * m.toNat + j) = t.dmemByte (32 * n.toNat + j)) ∧
    ∃ t u, exec (.funpack v rd n) s = .next t ∧ exec (.fpack v rd m) t = .next u ∧
      u.dmemRead m 1 = leBytes (leInt (s.dmemRead n 1) % 2 ^ 255 % fieldPrime) 32 ∧
      (u.dmemRead m 1 = s.dmemRead n 1 ↔ leInt (s.dmemRead n 1) < fieldPrime)

/-! ### The scalar unit -/

/-- SUNPACK loads the slot's integer modulo 2^253 modulo l, SUNPACK64 the 64-byte integer of two slots modulo l, and SPACK
stores the scalar's bytes (42_scalar.md R262, R263, R272 to R274). -/
def Obligations.ScalarLoadAndStore : Prop :=
  ∀ (s : State) (v : Bool) (slot : BitVec 8),
    (∀ rd : SReg, slot.toNat ≤ 63 → ∃ t r, exec (.sunpack v rd slot) s = .next t ∧ OnlyS s t rd r ∧
      r.val = (∑ j ∈ Finset.range 32, (s.dmemByte (32 * slot.toNat + j)).toNat * 256 ^ j) % 2 ^ 253 % groupOrder) ∧
    (∀ rd : SReg, slot.toNat ≤ 62 → ∃ t r, exec (.sunpack64 v rd slot) s = .next t ∧ OnlyS s t rd r ∧
      r.val = (∑ j ∈ Finset.range 64, (s.dmemByte (32 * slot.toNat + j)).toNat * 256 ^ j) % groupOrder) ∧
    ∀ (ra : SReg) (a : Scalar), slot.toNat ≤ 63 → s.sc[ra] = some a →
      ∃ t, exec (.spack v ra slot) s = .next t ∧ OnlySlot s t slot a.val

/-- SADD, SSUB, SNEG, SMUL and SSQR write the exact result modulo l and nothing else (42_scalar.md R275 to R279, R285). -/
def Obligations.ScalarArithmeticResults : Prop :=
  ∀ (s : State) (v : Bool) (rd ra rb : SReg) (a b : Scalar), s.sc[ra] = some a → s.sc[rb] = some b →
    (∃ t r, exec (.sadd v rd ra rb) s = .next t ∧ OnlyS s t rd r ∧ r.val = (a.val + b.val) % groupOrder) ∧
    (∃ t r, exec (.ssub v rd ra rb) s = .next t ∧ OnlyS s t rd r ∧ (r.val + b.val) % groupOrder = a.val) ∧
    (∃ t r, exec (.sneg v rd ra) s = .next t ∧ OnlyS s t rd r ∧ (r.val + a.val) % groupOrder = 0) ∧
    (∃ t r, exec (.smul v rd ra rb) s = .next t ∧ OnlyS s t rd r ∧ r.val = a.val * b.val % groupOrder) ∧
    ∃ t r, exec (.ssqr v rd ra) s = .next t ∧ OnlyS s t rd r ∧ r.val = a.val ^ 2 % groupOrder

/-- SINV writes a^(l-2) mod l, which is the inverse of a nonzero a and 0 for 0 (42_scalar.md R280). -/
def Obligations.ScalarInverseResult : Prop :=
  ∀ (s : State) (v : Bool) (rd ra : SReg) (a : Scalar), s.sc[ra] = some a →
    ∃ t r, exec (.sinv v rd ra) s = .next t ∧ OnlyS s t rd r ∧ r.val = a.val ^ (groupOrder - 2) % groupOrder ∧
      (a ≠ 0 → r * a = 1) ∧ (a = 0 → r = 0)

/-- SISZERO, SISONE and SEQ write their flag and nothing else (42_scalar.md R281 to R283). -/
def Obligations.ScalarPredicateFlags : Prop :=
  ∀ (s : State) (v : Bool) (rd : BReg) (ra rb : SReg) (a b : Scalar), s.sc[ra] = some a → s.sc[rb] = some b →
    (∃ t, exec (.siszero v rd ra) s = .next t ∧ OnlyB s t rd (decide (a = 0))) ∧
    (∃ t, exec (.sisone v rd ra) s = .next t ∧ OnlyB s t rd (decide (a = 1))) ∧
    ∃ t, exec (.seq v rd ra rb) s = .next t ∧ OnlyB s t rd (decide (a = b))

/-- SPACK of a scalar to a slot, then SUNPACK of the slot, gives the scalar back (42_scalar.md R287). -/
def Obligations.ScalarRoundTrip : Prop :=
  ∀ (s : State) (v : Bool) (rd ra : SReg) (slot : BitVec 8) (a : Scalar), slot.toNat ≤ 63 → s.sc[ra] = some a →
    ∃ t u, exec (.spack v ra slot) s = .next t ∧ exec (.sunpack v rd slot) t = .next u ∧ OnlyS t u rd a

/-! ### The group unit -/

/-- The constants of the curve and of the field meet their definitions: D = -121665/121666, SQRT_M1 the nonnegative root
of -1, the four derived constants with their signs, the base point on the curve with y = 4/5 and x nonnegative, its
encoding, and the neutral element (41_field.md R194, 43_group.md R310 to R312). -/
def Obligations.ConstantsMeetTheirDefinitions : Prop :=
  curveD * 121666 = -121665 ∧ curve2D = 2 * curveD ∧ sqrtM1 * sqrtM1 = -1 ∧ isNegative sqrtM1 = false ∧
    invsqrtAMinusD * invsqrtAMinusD * (-1 - curveD) = 1 ∧ isNegative invsqrtAMinusD = false ∧
    sqrtADMinusOne * sqrtADMinusOne = -curveD - 1 ∧ isNegative sqrtADMinusOne = true ∧
    oneMinusDSq = 1 - curveD * curveD ∧ dMinusOneSq = (curveD - 1) * (curveD - 1) ∧
    basePoint.y * 5 = 4 ∧ isNegative basePoint.x = false ∧ onCurve basePoint = true ∧ onCurve neutral = true ∧
    leInt (ristrettoEncode basePoint) = 0x762d8de04559a6b68ddd82a56a0be3585f5100c561a984a8714ebc6a0aaef2e2 ∧
    leInt (ristrettoEncode neutral) = 0

/-- GADD, GDBL, GNEG, GSMUL, GSMULB, GNEUTRAL, GBASE and GELLIGATOR write the point of their rule and nothing else
(43_group.md R334 to R338, R342 to R344).  What the functions `ptAdd`, `ptMul` and `elligator` give is said by
`GroupLawIsCompleteOnTheCurve`, `ScalarMultiplicationDoublesAndAdds` and `ElligatorLandsOnTheCurve`. -/
def Obligations.GroupCommandsComplete : Prop :=
  ∀ (s : State) (v : Bool) (rd ra rb : Fin 16) (P Q : Pt) (k : Scalar) (t0 : Fe),
    (s.g[ra] = .point P → s.g[rb] = .point Q → ∃ t, exec (.gadd v rd ra rb) s = .next t ∧ OnlyG s t rd (.point (ptAdd P Q))) ∧
    (s.g[ra] = .point P → ∃ t, exec (.gdbl v rd ra) s = .next t ∧ OnlyG s t rd (.point (ptAdd P P))) ∧
    (s.g[ra] = .point P → ∃ t, exec (.gneg v rd ra) s = .next t ∧ OnlyG s t rd (.point ⟨-P.x, P.y⟩)) ∧
    (s.g[ra] = .point P → s.sc[rb] = some k →
      ∃ t, exec (.gsmul v rd ra rb) s = .next t ∧ OnlyG s t rd (.point (ptMul k.val P))) ∧
    (s.sc[rb] = some k → ∃ t, exec (.gsmulb v rd rb) s = .next t ∧ OnlyG s t rd (.point (ptMul k.val basePoint))) ∧
    (∃ t, exec (.gneutral v rd) s = .next t ∧ OnlyG s t rd (.point ⟨0, 1⟩)) ∧
    (∃ t, exec (.gbase v rd) s = .next t ∧ OnlyG s t rd (.point basePoint)) ∧
    (s.f[ra] = some t0 → ∃ t, exec (.gelligator v rd ra) s = .next t ∧ OnlyG s t rd (.point (elligator t0)))

/-- GMSM reads its n pairs and writes the sum of their products and nothing else: the last product alone, and from pair k on
the product of pair k plus the sum from pair k + 1 on; the destination may lie in the range read (43_group.md R339; the
grouping from the right is the model's, log entry 17). -/
def Obligations.MultiScalarMultiplicationSumsItsTerms : Prop :=
  ∀ (s : State) (v : Bool) (rd ra : GReg) (rb : SReg) (n : BitVec 8) (P : Nat → Pt) (c : Nat → Scalar),
    1 ≤ n.toNat → ra.val + n.toNat ≤ 16 → rb.val + n.toNat ≤ 16 →
    (∀ k, k < n.toNat → s.g[Fin.ofNat 16 (ra.val + k)] = .point (P k) ∧ s.sc[Fin.ofNat 16 (rb.val + k)] = some (c k)) →
    ∃ t, ∃ sumFrom : Nat → Pt, exec (.gmsm v rd ra rb n) s = .next t ∧ OnlyG s t rd (.point (sumFrom 0)) ∧
      sumFrom (n.toNat - 1) = ptMul (c (n.toNat - 1)).val (P (n.toNat - 1)) ∧
      (∀ k, k + 1 < n.toNat → sumFrom k = ptAdd (ptMul (c k).val (P k)) (sumFrom (k + 1))) ∧
      sumFrom 0 = ptMulSum ((List.range n.toNat).map fun k => (P k, c k))

/-- GEQ writes the OR of the two cross products, so 1 for a point with itself, and GISNEUTRAL whether three doublings reach
the neutral element, and nothing else (43_group.md R315, R340, R341). -/
def Obligations.GroupPredicateFlags : Prop :=
  ∀ (s : State) (v : Bool) (rd : BReg) (ra rb : GReg) (P Q : Pt), s.g[ra] = .point P → s.g[rb] = .point Q →
    (∃ t x, exec (.geq v rd ra rb) s = .next t ∧ OnlyB s t rd x ∧
      (x = true ↔ P.x * Q.y = Q.x * P.y ∨ P.x * Q.x = P.y * Q.y) ∧ (ra = rb → x = true)) ∧
    ∃ t x, exec (.gisneutral v rd ra) s = .next t ∧ OnlyB s t rd x ∧
      (x = true ↔ (ptDbl (ptDbl (ptDbl P))).x = 0 ∨ (ptDbl (ptDbl (ptDbl P))).y = 0)

/-- GUNPACK writes what `ristrettoDecode` gives for the slot's 32 bytes, and flag 1, or Poison and flag 0, and nothing else
(43_group.md R332).  The integer of the bytes is rejected if it is at or above p, so if bit 255 is set, or odd; else, as
the field value e, it decodes exactly when the three tests of R317 pass, to the point (x, y) of R317's equations, with x
the nonnegative one of 2*e*den_x and its negation.  Every decoded point lies on the curve, and 32 zero bytes decode to
(0, 1) (43_group.md R317). -/
def Obligations.GroupUnpackDecodesOrPoisons : Prop :=
  ∀ (s : State) (v : Bool) (rd : GReg) (rc : BReg) (slot : BitVec 8), slot.toNat ≤ 63 →
    ∃ t, exec (.gunpack v rd rc slot) s = .next t ∧
      OnlyGB s t rd (decodedReg (ristrettoDecode (s.dmemRead slot 1))) rc
        (ristrettoDecode (s.dmemRead slot 1)).isSome ∧
      ((∃ P, OnlyGB s t rd (.point P) rc true ∧ onCurve P = true ∧ P.y ≠ 0 ∧ (P.x * P.y).val % 2 = 0) ∨
        OnlyGB s t rd .poison rc false) ∧
      (fieldPrime ≤ leInt (s.dmemRead slot 1) ∨ leInt (s.dmemRead slot 1) % 2 = 1 → OnlyGB s t rd .poison rc false) ∧
      (∀ e x y : Fe, e.val = leInt (s.dmemRead slot 1) → e.val % 2 = 0 →
        let u1 := 1 - e * e
        let u2 := 1 + e * e
        let w := -(curveD * (u1 * u1)) - u2 * u2
        let root := sqrtRatioM1 1 (w * (u2 * u2))
        let denX := root.2 * u2
        x.val % 2 = 0 → (x = 2 * e * denX ∨ x = -(2 * e * denX)) → y = u1 * (root.2 * denX * w) →
          (root.1 = true ∧ (x * y).val % 2 = 0 ∧ y ≠ 0 → OnlyGB s t rd (.point ⟨x, y⟩) rc true) ∧
          (¬(root.1 = true ∧ (x * y).val % 2 = 0 ∧ y ≠ 0) → OnlyGB s t rd .poison rc false)) ∧
      ((∀ j, j < 32 → s.dmemByte (32 * slot.toNat + j) = 0) → OnlyGB s t rd (.point ⟨0, 1⟩) rc true)

/-- GPACK stores the Ristretto encoding, a canonical nonnegative field value, to its slot and nothing else
(43_group.md R316, R333). -/
def Obligations.GroupPackStoresTheEncoding : Prop :=
  ∀ (s : State) (v : Bool) (ra : GReg) (slot : BitVec 8) (P : Pt), slot.toNat ≤ 63 → s.g[ra] = .point P →
    ∃ t n, exec (.gpack v ra slot) s = .next t ∧ OnlySlot s t slot n ∧ n = leInt (ristrettoEncode P) ∧ n < fieldPrime ∧
      n % 2 = 0

/-- The group law on the curve: its denominators never vanish, the sum meets the two equations of 43_group.md R313, and it
lies on the curve again, doubling included; and the double of a point lies in 2E (43_group.md R311, R313; 2E by the
criterion of log entry 18). -/
def Obligations.GroupLawIsCompleteOnTheCurve : Prop :=
  ∀ P Q : Pt, onCurve P = true → onCurve Q = true →
    1 + curveD * P.x * Q.x * P.y * Q.y ≠ 0 ∧ 1 - curveD * P.x * Q.x * P.y * Q.y ≠ 0 ∧
      (ptAdd P Q).x * (1 + curveD * P.x * Q.x * P.y * Q.y) = P.x * Q.y + P.y * Q.x ∧
      (ptAdd P Q).y * (1 - curveD * P.x * Q.x * P.y * Q.y) = P.y * Q.y + P.x * Q.x ∧ onCurve (ptAdd P Q) = true ∧
      InTwoE (ptAdd P P)

/-- Negation is (-x, y) and P + (-P) is the neutral element (43_group.md R314); and on the curve the neutral element adds
nothing, addition is commutative, and negation stays on the curve and undoes itself. -/
def Obligations.NegationAndGroupLaws : Prop :=
  ∀ P Q : Pt, onCurve P = true → onCurve Q = true →
    ptNeg P = ⟨-P.x, P.y⟩ ∧ ptAdd P neutral = P ∧ ptAdd P (ptNeg P) = ⟨0, 1⟩ ∧ ptAdd P Q = ptAdd Q P ∧ ptNeg (ptNeg P) = P ∧
      onCurve (ptNeg P) = true

/-- Scalar multiplication on the curve, by the group law of 43_group.md R313 alone: 0*P is neutral, 1*P is P, 2k*P is the
double of k*P and (2k+1)*P is that plus P, for every k below 2^252, and k*P is on the curve for every k below 2^253, so for
every scalar (43_group.md R313, R337; the doubling recursion is the model's algorithm, log entry 8). -/
def Obligations.ScalarMultiplicationDoublesAndAdds : Prop :=
  ∀ P : Pt, onCurve P = true →
    ptMul 0 P = neutral ∧ ptMul 1 P = P ∧ (∀ k, k < 2 ^ 253 → onCurve (ptMul k P) = true) ∧
      ∀ k, k < 2 ^ 252 → ptMul (2 * k) P = ptAdd (ptMul k P) (ptMul k P) ∧
        ptMul (2 * k + 1) P = ptAdd (ptAdd (ptMul k P) (ptMul k P)) P

/-- The Elligator map sends 0 to the neutral element and t and -t to one point (43_group.md R344). -/
def Obligations.ElligatorIsEven : Prop := elligator 0 = neutral ∧ ∀ t : Fe, elligator (-t) = elligator t

/-- The Elligator map gives, for every field value t, the affine point (w0/w1, w2/w3) of 43_group.md R318, whose
denominators never vanish, and lands on the curve.  SQRT_RATIO_M1(u, v), for a u that is never 0, decides the case: s is its
root and c is -1, or s is the negation of the nonnegative one of root*t and -root*t, and c is r (43_group.md R318, R330;
`SqrtRatioCases` says what SQRT_RATIO_M1 gives). -/
def Obligations.ElligatorLandsOnTheCurve : Prop :=
  ∀ t : Fe, onCurve (elligator t) = true ∧
    let r := sqrtM1 * (t * t)
    let u := (r + 1) * (1 - curveD * curveD)
    let v := (-1 - r * curveD) * (r + curveD)
    let root := sqrtRatioM1 u v
    u ≠ 0 ∧ ∃ s c n : Fe,
      ((root.1 = true ∧ s = root.2 ∧ c = -1) ∨
        (root.1 = false ∧ (s = root.2 * t ∨ s = -(root.2 * t)) ∧ (-s).val % 2 = 0 ∧ c = r)) ∧
      n = c * (r - 1) * ((curveD - 1) * (curveD - 1)) - v ∧ n * sqrtADMinusOne ≠ 0 ∧ 1 + s * s ≠ 0 ∧
      (elligator t).x * (n * sqrtADMinusOne) = 2 * s * v ∧ (elligator t).y * (1 + s * s) = 1 - s * s

/-! ### The host's side -/

/-- START while Idle clears DONE, ERR, ERRCODE, ERRPC, ERRWORD and RETIRED, sets BUSY and changes nothing else but the
enables the same write sets; START while Running only sets HERR (60_exceptions.md R375, 10_state.md R62). -/
def Obligations.StartBeginsARunWhenIdle : Prop :=
  ∀ (s : State) (w : Word), w.getLsbD 0 = true → w.getLsbD 1 = false →
    (s.busy = false → s.hostWriteAny 0x004 4 w =
      { s with ieDone := w.getLsbD 2, ieErr := w.getLsbD 3, done := false, err := false, errcode := 0, errpc := 0,
               errword := 0, retired := 0, busy := true }) ∧
    (s.busy = true → s.hostWriteAny 0x004 4 w =
      { s with ieDone := w.getLsbD 2, ieErr := w.getLsbD 3, herr := true })

/-- A soft reset, in either phase, sets every register to its reset value and discards the rest of the write; IMEM stays,
and so does DMEM, but that when it cuts a run short at a pack command of an existing slot, that slot's bytes become draws
(70_reset_and_hazards.md R411, R412; that they are the next 32 of the numbered draws is the model's, log entry 2). -/
def Obligations.SoftResetKeepsTheMemories : Prop :=
  ∀ (s : State) (w : Word), w.getLsbD 1 = true →
    ∃ t, s.hostWriteAny 0x004 4 w = t ∧ t.f = State.reset.f ∧ t.sc = State.reset.sc ∧ t.g = State.reset.g ∧
      t.b = State.reset.b ∧ t.pc = 0 ∧ t.busy = false ∧ t.done = false ∧ t.err = false ∧ t.herr = false ∧
      t.errcode = 0 ∧ t.ieDone = false ∧ t.ieErr = false ∧ t.errpc = 0 ∧ t.errword = 0 ∧ t.retired = 0 ∧
      (∀ k, t.imemWord k = s.imemWord k) ∧
      (∀ i slot, s.busy = true → decode (s.imemWord s.pc.toNat) = .ok i → packSlot i = some slot → slot.toNat ≤ 63 →
        (∀ j, j < 32 → t.dmemByte (32 * slot.toNat + j) = Config.draw 8 (s.draws + j)) ∧
          ∀ a, (a < 32 * slot.toNat ∨ 32 * slot.toNat + 32 ≤ a) → t.dmemByte a = s.dmemByte a) ∧
      ((¬∃ i slot, s.busy = true ∧ decode (s.imemWord s.pc.toNat) = .ok i ∧ packSlot i = some slot ∧ slot.toNat ≤ 63) →
        ∀ a, t.dmemByte a = s.dmemByte a)

/-- A hard reset, in either phase, sets every piece of state as the table of 10_state.md R74 says and leaves the memories
the draws of that reset, which no reset before it made; and the state after reset is such a state
(70_reset_and_hazards.md R410; that a reset's draws are the opaque values numbered by `powerOn` is the model's, log
entry 3). -/
def Obligations.HardResetSetsTheResetTable : Prop :=
  ∀ s t : State, (t = State.reset ∨ t = s.hardReset) →
    (∀ i : FReg, t.f[i] = none) ∧ (∀ i : SReg, t.sc[i] = none) ∧ (∀ i : GReg, t.g[i] = .unwritten) ∧
      (∀ i : BReg, t.b[i] = false) ∧ t.busy = false ∧ t.done = false ∧ t.err = false ∧ t.herr = false ∧
      t.errcode = 0x00 ∧ t.ieDone = false ∧ t.ieErr = false ∧ t.pc = 0 ∧ t.errpc = 0 ∧ t.errword = 0x00000000 ∧
      t.retired = 0 ∧ t.irq = false ∧ (∀ k, t.imemWord k = Config.powerOnWord t.powerOn k) ∧
      (∀ a, t.dmemByte a = Config.powerOnByte t.powerOn a) ∧ s.hardReset.powerOn = s.powerOn + 1

/-- While Running: a write to PC, BREG, IMEM or DMEM only sets HERR; a read of IMEM or DMEM returns a draw and sets HERR; a
read of BREG, FSVALID or GVALID returns a draw and does not.  In either phase ID, CTRL, STATUS, PC, ERRPC, ERRWORD and
RETIRED return their values (20_memory.md R107, 10_state.md R61 to R66, R70).  Which draw it is, its count, and the record
of the word returned are the model's (log entries 2 and 5). -/
def Obligations.WindowWhileRunning : Prop :=
  ∀ (s : State) (off : Nat), off % 4 = 0 → off < 4096 →
    (s.busy = true →
      (∀ w, (off = 0x00C ∨ off = 0x018 ∨ 0x400 ≤ off) → s.hostWriteAny off 4 w = { s with herr := true }) ∧
      (0x400 ≤ off → s.hostReadAny off 4 =
        { s with readData := Config.draw 32 s.draws, draws := s.draws + 1, herr := true }) ∧
      (off = 0x018 → s.hostReadAny off 4 =
        { s with readData := (Config.draw 16 s.draws).setWidth 32, draws := s.draws + 1 }) ∧
      ((off = 0x01C ∨ off = 0x020) → s.hostReadAny off 4 =
        { s with readData := Config.draw 32 s.draws, draws := s.draws + 1 })) ∧
    (off = 0x000 → s.hostReadAny off 4 = { s with readData := 0x25519001 }) ∧
    (off = 0x004 → s.hostReadAny off 4 = { s with readData := s.ctrlWord }) ∧
    (off = 0x008 → s.hostReadAny off 4 = { s with readData := s.statusWord }) ∧
    (off = 0x00C → s.hostReadAny off 4 = { s with readData := s.pc.setWidth 32 }) ∧
    (off = 0x010 → s.hostReadAny off 4 = { s with readData := s.errpc.setWidth 32 }) ∧
    (off = 0x014 → s.hostReadAny off 4 = { s with readData := s.errword }) ∧
    (off = 0x024 → s.hostReadAny off 4 = { s with readData := s.retired })

/-- An access that is no aligned 32-bit word, in either phase: a write is ignored, a read returns a draw, and HERR is set
(20_memory.md R106).  Which draw it is, its count, and the record of the word returned are the model's (log entries 2
and 5). -/
def Obligations.MisalignedAccessesOnlySetHerr : Prop :=
  ∀ (s : State) (off bytes : Nat) (w : Word), (bytes ≠ 4 ∨ off % 4 ≠ 0) →
    s.hostWriteAny off bytes w = { s with herr := true } ∧
      s.hostReadAny off bytes = { s with readData := Config.draw 32 s.draws, draws := s.draws + 1, herr := true }

/-- Reserved offsets and reserved bits read 0, and writes to them change nothing (10_state.md R71); and a write to a
read-only register changes nothing in either phase. -/
def Obligations.ReservedBitsReadZeroAndIgnoreWrites : Prop :=
  ∀ s : State,
    (∀ off, off % 4 = 0 → 0x028 ≤ off → off < 0x400 →
      s.hostReadAny off 4 = { s with readData := 0 } ∧ ∀ w, s.hostWriteAny off 4 w = s) ∧
    (∀ off ∈ [0x000, 0x010, 0x014, 0x01C, 0x020, 0x024], ∀ w, s.hostWriteAny off 4 w = s) ∧
    (∀ k, 4 ≤ k → s.ctrlWord.getLsbD k = false) ∧
    (∀ k, (4 ≤ k ∧ k ≤ 7) ∨ 17 ≤ k → s.statusWord.getLsbD k = false) ∧
    (∀ k, 8 ≤ k → ((s.hostReadAny 0x00C 4).readData.getLsbD k = false ∧ (s.hostReadAny 0x010 4).readData.getLsbD k = false)) ∧
    (∀ k, 16 ≤ k → (s.hostReadAny 0x018 4).readData.getLsbD k = false) ∧
    ∀ w w' : Word, (∀ k, k < 4 → w.getLsbD k = w'.getLsbD k) →
      s.hostWriteAny 0x004 4 w = s.hostWriteAny 0x004 4 w' ∧ s.hostWriteAny 0x008 4 w = s.hostWriteAny 0x008 4 w' ∧
      ((∀ k, k < 8 → w.getLsbD k = w'.getLsbD k) → s.hostWriteAny 0x00C 4 w = s.hostWriteAny 0x00C 4 w') ∧
      ((∀ k, k < 16 → w.getLsbD k = w'.getLsbD k) → s.hostWriteAny 0x018 4 w = s.hostWriteAny 0x018 4 w')

/-- STATUS and CTRL show each of their fields at its place, and IRQ is the level of 60_exceptions.md R380; writing 1 to DONE,
ERR or HERR clears it; and a write to CTRL that asks for neither START nor a soft reset sets the two enables and nothing
else, in either phase (10_state.md R62, R63). -/
def Obligations.StatusWordShowsItsFields : Prop :=
  ∀ s : State,
    s.statusWord.getLsbD 0 = s.busy ∧ s.statusWord.getLsbD 1 = s.done ∧ s.statusWord.getLsbD 2 = s.err ∧
      s.statusWord.getLsbD 3 = s.herr ∧ (∀ k, k < 8 → s.statusWord.getLsbD (8 + k) = s.errcode.getLsbD k) ∧
      s.statusWord.getLsbD 16 = ((s.done && s.ieDone) || ((s.err || s.herr) && s.ieErr)) ∧
      s.ctrlWord.getLsbD 0 = false ∧ s.ctrlWord.getLsbD 1 = false ∧ s.ctrlWord.getLsbD 2 = s.ieDone ∧
      s.ctrlWord.getLsbD 3 = s.ieErr ∧
      (∀ w, s.hostWriteAny 0x008 4 w =
        { s with done := s.done && !w.getLsbD 1, err := s.err && !w.getLsbD 2, herr := s.herr && !w.getLsbD 3 }) ∧
      ∀ w : Word, w.getLsbD 0 = false → w.getLsbD 1 = false → s.hostWriteAny 0x004 4 w =
        { s with ieDone := w.getLsbD 2, ieErr := w.getLsbD 3 }

/-- While Idle, BREG, FSVALID and GVALID show the B bits and which registers are written or Poison, a write to BREG sets every
B bit, and a write to PC sets it to bits 7 to 0 of the word; neither write changes anything else (10_state.md R64, R67 to
R69). -/
def Obligations.RegisterFilesShowInTheWindow : Prop :=
  ∀ (s : State) (i : Fin 16), s.busy = false →
    (s.hostReadAny 0x018 4).readData.getLsbD i = s.b[i] ∧
      (s.hostReadAny 0x01C 4).readData.getLsbD i = decide (s.f[i] ≠ none) ∧
      (s.hostReadAny 0x01C 4).readData.getLsbD (16 + i) = decide (s.sc[i] ≠ none) ∧
      (s.hostReadAny 0x020 4).readData.getLsbD i = decide (s.g[i] ≠ .unwritten) ∧
      (s.hostReadAny 0x020 4).readData.getLsbD (16 + i) = decide (s.g[i] = .poison) ∧
      (∀ w, ∃ t, s.hostWriteAny 0x018 4 w = t ∧ t.b[i] = w.getLsbD i ∧ t = { s with b := t.b }) ∧
      ∀ w, s.hostWriteAny 0x00C 4 w = { s with pc := w.extractLsb' 0 8 }

/-- The host's words of DMEM are little-endian: while Idle, a write of word m sets bytes 4m to 4m+3 and no other byte, and a
read gives them back; IMEM word k is the word at its offset (20_memory.md R102, R103). -/
def Obligations.HostWordsOfTheMemories : Prop :=
  ∀ (s : State) (w : Word), s.busy = false →
    (∀ m, m < 512 → ∃ t, s.hostWriteAny (0x800 + 4 * m) 4 w = t ∧ t = { s with dmem := t.dmem } ∧
      (∀ j, j < 4 → t.dmemByte (4 * m + j) = w.extractLsb' (8 * j) 8) ∧
      (∀ a, (a < 4 * m ∨ 4 * m + 4 ≤ a) → t.dmemByte a = s.dmemByte a)) ∧
    (∀ m j, m < 512 → j < 4 →
      (s.hostReadAny (0x800 + 4 * m) 4).readData.extractLsb' (8 * j) 8 = s.dmemByte (4 * m + j)) ∧
    ∀ k, k < 256 → (s.hostReadAny (0x400 + 4 * k) 4).readData = s.imemWord k ∧
      ∃ t, s.hostWriteAny (0x400 + 4 * k) 4 w = t ∧ t = { s with imem := t.imem } ∧ t.imemWord k = w ∧
        ∀ k', k' ≠ k → t.imemWord k' = s.imemWord k'

/-- No read has a side effect on the machine: it changes at most HERR, and the model's record of the word read and of the
draws made (20_memory.md R109; the record is the model's, log entries 2 and 5). -/
def Obligations.HostReadsHaveNoSideEffect : Prop :=
  ∀ (s : State) (off bytes : Nat),
    ∃ h d r, s.hostReadAny off bytes = { s with herr := h, draws := d, readData := r } ∧ (s.herr = true → h = true) ∧
      (s.busy = false → aligned off bytes = true → h = s.herr ∧ d = s.draws)

/-! ### Points of 2E -/

/-- The Ristretto round trip, for every point of 2E, so for every point a register can hold: GPACK of P to a slot, then
GUNPACK of the slot, gives flag 1 and a point R that `geq` calls equal to P, and GPACK of R writes the same bytes
(43_group.md R346; 2E by the criterion of log entry 18). -/
def Obligations.GroupRoundTrip : Prop :=
  ∀ (s : State) (v : Bool) (rd ra : GReg) (rc : BReg) (n m : BitVec 8) (P : Pt), n.toNat ≤ 63 → m.toNat ≤ 63 →
    InTwoE P → s.g[ra] = .point P →
    ∃ t u x R, exec (.gpack v ra n) s = .next t ∧ exec (.gunpack v rd rc n) t = .next u ∧
      OnlyGB t u rd (.point R) rc true ∧ (P.x * R.y = R.x * P.y ∨ P.x * R.x = P.y * R.y) ∧
      exec (.gpack v rd m) u = .next x ∧
      ∀ j, j < 32 → x.dmemByte (32 * m.toNat + j) = t.dmemByte (32 * n.toNat + j)

/-- Every step keeps every point register in 2E: every point a command can write lies in 2E (43_group.md R348; 2E by the
criterion of log entry 18). -/
def Obligations.EveryStepKeepsPointsInTwoE : Prop :=
  ∀ s t : State, PointsInTwoE s → step s = .next t → PointsInTwoE t
end

