-- ==== Sys2Proof/Laws/Arith.lean ====
section
/-! SUPPORT. What the modular power computes, and that the field prime is prime. -/

-- One theorem after another: many at once exceed the memory that check.sh allows for threads.
set_option Elab.async false

namespace Sys2Proof.Machine

/-- The loop multiplies `acc` by the power its remaining exponent bits stand for. -/
theorem powModLoop_eq (m fuel b e acc : Nat) (he : e < 2 ^ fuel) :
    powModLoop m fuel b e acc % m = acc * b ^ e % m := by
  induction fuel generalizing b e acc with
  | zero =>
    have : e = 0 := by simpa using he
    simp [powModLoop, this]
  | succ fuel ih =>
    have h2 : e / 2 < 2 ^ fuel := by rw [Nat.pow_succ] at he; omega
    rw [powModLoop, ih _ _ _ h2]
    have hp : (b * b % m) ^ (e / 2) % m = (b * b) ^ (e / 2) % m := by
      rw [← Nat.pow_mod]
    have key : ∀ x, x * (b * b % m) ^ (e / 2) % m = x * (b * b) ^ (e / 2) % m := fun x => by
      rw [Nat.mul_mod, hp, ← Nat.mul_mod]
    rw [key]
    have hbb : (b * b) ^ (e / 2) = b ^ (2 * (e / 2)) := by rw [pow_mul, pow_two]
    rw [hbb]
    split
    · rename_i h
      have : e = 2 * (e / 2) + 1 := by omega
      conv_rhs => rw [this, pow_succ]
      rw [Nat.mod_mul_mod]
      congr 1
      ring
    · rename_i h
      have : 2 * (e / 2) = e := by omega
      rw [this]

/-- `powMod` is the modular power, for exponents below 2^256. -/
theorem powMod_eq (m a e : Nat) (he : e < 2 ^ 256) : powMod m a e % m = a ^ e % m := by
  unfold powMod
  rw [powModLoop_eq m 256 a e _ he, Nat.mod_mul_mod, Nat.one_mul]

/-- A power in GF(p), as an integer. -/
theorem val_fePow (x : Fe) (e : Nat) (he : e < 2 ^ 256) : (fePow x e).val = x.val ^ e % fieldPrime := by
  simpa [fePow, Fin.ofNat] using powMod_eq fieldPrime x.val e he

/-- Scalar inversion, as an integer. -/
theorem val_scInv (a : Scalar) : (scInv a).val = a.val ^ (groupOrder - 2) % groupOrder := by
  simpa [scInv, Fin.ofNat] using powMod_eq groupOrder a.val (groupOrder - 2) (by norm_num)

end Sys2Proof.Machine
end

