-- ==== Sys2Proof/Laws/PerInstr.lean ====
section
/-! SUPPORT. One law per command, as syntax: the command is what its own row of the opcode table builds from its fields,
and the fields the row does not use are zero. -/

-- One theorem after another: many at once exceed the memory that check.sh allows for threads.
set_option Elab.async false

namespace Sys2Proof.Laws.RowOfTable

/-- The opcode of the command's fields is assigned to a row, which uses every nonzero field of the command and builds
the command from them. -/
def Statement (i : Instr) : Prop :=
  ∃ r, rowOf (fieldsOfInstr i).opc = some r ∧ unusedZero r.uses (fieldsOfInstr i) = true ∧ r.build (fieldsOfInstr i) = i

theorem nop (v : Bool) : Statement (.nop v) :=
  ⟨_, rfl, by simp [unusedZero, fieldsOfInstr], rfl⟩

theorem halt (v : Bool) : Statement (.halt v) :=
  ⟨_, rfl, by simp [unusedZero, fieldsOfInstr], rfl⟩

theorem funpack (v : Bool) (rd : FReg) (slot : BitVec 8) : Statement (.funpack v rd slot) :=
  ⟨_, rfl, by simp [unusedZero, fieldsOfInstr], rfl⟩

theorem fpack (v : Bool) (ra : FReg) (slot : BitVec 8) : Statement (.fpack v ra slot) :=
  ⟨_, rfl, by simp [unusedZero, fieldsOfInstr], rfl⟩

theorem fadd (v : Bool) (rd ra rb : FReg) : Statement (.fadd v rd ra rb) :=
  ⟨_, rfl, by simp [unusedZero, fieldsOfInstr], rfl⟩

theorem fsub (v : Bool) (rd ra rb : FReg) : Statement (.fsub v rd ra rb) :=
  ⟨_, rfl, by simp [unusedZero, fieldsOfInstr], rfl⟩

theorem fneg (v : Bool) (rd ra : FReg) : Statement (.fneg v rd ra) :=
  ⟨_, rfl, by simp [unusedZero, fieldsOfInstr], rfl⟩

theorem fdbl (v : Bool) (rd ra : FReg) : Statement (.fdbl v rd ra) :=
  ⟨_, rfl, by simp [unusedZero, fieldsOfInstr], rfl⟩

theorem ftrpl (v : Bool) (rd ra : FReg) : Statement (.ftrpl v rd ra) :=
  ⟨_, rfl, by simp [unusedZero, fieldsOfInstr], rfl⟩

theorem fmul (v : Bool) (rd ra rb : FReg) : Statement (.fmul v rd ra rb) :=
  ⟨_, rfl, by simp [unusedZero, fieldsOfInstr], rfl⟩

theorem fsqr (v : Bool) (rd ra : FReg) : Statement (.fsqr v rd ra) :=
  ⟨_, rfl, by simp [unusedZero, fieldsOfInstr], rfl⟩

theorem fsqr2 (v : Bool) (rd ra : FReg) : Statement (.fsqr2 v rd ra) :=
  ⟨_, rfl, by simp [unusedZero, fieldsOfInstr], rfl⟩

theorem finv (v : Bool) (rd ra : FReg) : Statement (.finv v rd ra) :=
  ⟨_, rfl, by simp [unusedZero, fieldsOfInstr], rfl⟩

theorem fpow2523 (v : Bool) (rd ra : FReg) : Statement (.fpow2523 v rd ra) :=
  ⟨_, rfl, by simp [unusedZero, fieldsOfInstr], rfl⟩

theorem finvsqrt (v : Bool) (rd ra : FReg) : Statement (.finvsqrt v rd ra) :=
  ⟨_, rfl, by simp [unusedZero, fieldsOfInstr], rfl⟩

theorem fsqrt (v : Bool) (rd ra : FReg) : Statement (.fsqrt v rd ra) :=
  ⟨_, rfl, by simp [unusedZero, fieldsOfInstr], rfl⟩

theorem finvsqrti (v : Bool) (rd ra : FReg) (rc : BReg) : Statement (.finvsqrti v rd ra rc) :=
  ⟨_, rfl, by simp [unusedZero, fieldsOfInstr], rfl⟩

theorem fsqrti (v : Bool) (rd ra : FReg) (rc : BReg) : Statement (.fsqrti v rd ra rc) :=
  ⟨_, rfl, by simp [unusedZero, fieldsOfInstr], rfl⟩

theorem fiszero (v : Bool) (rd : BReg) (ra : FReg) : Statement (.fiszero v rd ra) :=
  ⟨_, rfl, by simp [unusedZero, fieldsOfInstr], rfl⟩

theorem fisone (v : Bool) (rd : BReg) (ra : FReg) : Statement (.fisone v rd ra) :=
  ⟨_, rfl, by simp [unusedZero, fieldsOfInstr], rfl⟩

theorem fisneg (v : Bool) (rd : BReg) (ra : FReg) : Statement (.fisneg v rd ra) :=
  ⟨_, rfl, by simp [unusedZero, fieldsOfInstr], rfl⟩

theorem fiseq (v : Bool) (rd : BReg) (ra rb : FReg) : Statement (.fiseq v rd ra rb) :=
  ⟨_, rfl, by simp [unusedZero, fieldsOfInstr], rfl⟩

theorem fcmov (v : Bool) (rd ra : FReg) (rc : BReg) : Statement (.fcmov v rd ra rc) :=
  ⟨_, rfl, by simp [unusedZero, fieldsOfInstr], rfl⟩

theorem fabs (v : Bool) (rd ra : FReg) : Statement (.fabs v rd ra) :=
  ⟨_, rfl, by simp [unusedZero, fieldsOfInstr], rfl⟩

theorem sunpack (v : Bool) (rd : SReg) (slot : BitVec 8) : Statement (.sunpack v rd slot) :=
  ⟨_, rfl, by simp [unusedZero, fieldsOfInstr], rfl⟩

theorem sunpack64 (v : Bool) (rd : SReg) (slot : BitVec 8) : Statement (.sunpack64 v rd slot) :=
  ⟨_, rfl, by simp [unusedZero, fieldsOfInstr], rfl⟩

theorem spack (v : Bool) (ra : SReg) (slot : BitVec 8) : Statement (.spack v ra slot) :=
  ⟨_, rfl, by simp [unusedZero, fieldsOfInstr], rfl⟩

theorem sadd (v : Bool) (rd ra rb : SReg) : Statement (.sadd v rd ra rb) :=
  ⟨_, rfl, by simp [unusedZero, fieldsOfInstr], rfl⟩

theorem ssub (v : Bool) (rd ra rb : SReg) : Statement (.ssub v rd ra rb) :=
  ⟨_, rfl, by simp [unusedZero, fieldsOfInstr], rfl⟩

theorem sneg (v : Bool) (rd ra : SReg) : Statement (.sneg v rd ra) :=
  ⟨_, rfl, by simp [unusedZero, fieldsOfInstr], rfl⟩

theorem smul (v : Bool) (rd ra rb : SReg) : Statement (.smul v rd ra rb) :=
  ⟨_, rfl, by simp [unusedZero, fieldsOfInstr], rfl⟩

theorem ssqr (v : Bool) (rd ra : SReg) : Statement (.ssqr v rd ra) :=
  ⟨_, rfl, by simp [unusedZero, fieldsOfInstr], rfl⟩

theorem sinv (v : Bool) (rd ra : SReg) : Statement (.sinv v rd ra) :=
  ⟨_, rfl, by simp [unusedZero, fieldsOfInstr], rfl⟩

theorem siszero (v : Bool) (rd : BReg) (ra : SReg) : Statement (.siszero v rd ra) :=
  ⟨_, rfl, by simp [unusedZero, fieldsOfInstr], rfl⟩

theorem sisone (v : Bool) (rd : BReg) (ra : SReg) : Statement (.sisone v rd ra) :=
  ⟨_, rfl, by simp [unusedZero, fieldsOfInstr], rfl⟩

theorem seq (v : Bool) (rd : BReg) (ra rb : SReg) : Statement (.seq v rd ra rb) :=
  ⟨_, rfl, by simp [unusedZero, fieldsOfInstr], rfl⟩

theorem scmov (v : Bool) (rd ra : SReg) (rc : BReg) : Statement (.scmov v rd ra rc) :=
  ⟨_, rfl, by simp [unusedZero, fieldsOfInstr], rfl⟩

theorem gunpack (v : Bool) (rd : GReg) (rc : BReg) (slot : BitVec 8) : Statement (.gunpack v rd rc slot) :=
  ⟨_, rfl, by simp [unusedZero, fieldsOfInstr], rfl⟩

theorem gpack (v : Bool) (ra : GReg) (slot : BitVec 8) : Statement (.gpack v ra slot) :=
  ⟨_, rfl, by simp [unusedZero, fieldsOfInstr], rfl⟩

theorem gadd (v : Bool) (rd ra rb : GReg) : Statement (.gadd v rd ra rb) :=
  ⟨_, rfl, by simp [unusedZero, fieldsOfInstr], rfl⟩

theorem gdbl (v : Bool) (rd ra : GReg) : Statement (.gdbl v rd ra) :=
  ⟨_, rfl, by simp [unusedZero, fieldsOfInstr], rfl⟩

theorem gneg (v : Bool) (rd ra : GReg) : Statement (.gneg v rd ra) :=
  ⟨_, rfl, by simp [unusedZero, fieldsOfInstr], rfl⟩

theorem gsmul (v : Bool) (rd ra : GReg) (rb : SReg) : Statement (.gsmul v rd ra rb) :=
  ⟨_, rfl, by simp [unusedZero, fieldsOfInstr], rfl⟩

theorem gsmulb (v : Bool) (rd : GReg) (rb : SReg) : Statement (.gsmulb v rd rb) :=
  ⟨_, rfl, by simp [unusedZero, fieldsOfInstr], rfl⟩

theorem gmsm (v : Bool) (rd ra : GReg) (rb : SReg) (n : BitVec 8) : Statement (.gmsm v rd ra rb n) :=
  ⟨_, rfl, by simp [unusedZero, fieldsOfInstr], rfl⟩

theorem geq (v : Bool) (rd : BReg) (ra rb : GReg) : Statement (.geq v rd ra rb) :=
  ⟨_, rfl, by simp [unusedZero, fieldsOfInstr], rfl⟩

theorem gisneutral (v : Bool) (rd : BReg) (ra : GReg) : Statement (.gisneutral v rd ra) :=
  ⟨_, rfl, by simp [unusedZero, fieldsOfInstr], rfl⟩

theorem gneutral (v : Bool) (rd : GReg) : Statement (.gneutral v rd) :=
  ⟨_, rfl, by simp [unusedZero, fieldsOfInstr], rfl⟩

theorem gbase (v : Bool) (rd : GReg) : Statement (.gbase v rd) :=
  ⟨_, rfl, by simp [unusedZero, fieldsOfInstr], rfl⟩

theorem gelligator (v : Bool) (rd : GReg) (ra : FReg) : Statement (.gelligator v rd ra) :=
  ⟨_, rfl, by simp [unusedZero, fieldsOfInstr], rfl⟩

theorem gcmov (v : Bool) (rd ra : GReg) (rc : BReg) : Statement (.gcmov v rd ra rc) :=
  ⟨_, rfl, by simp [unusedZero, fieldsOfInstr], rfl⟩

end Sys2Proof.Laws.RowOfTable
end

