-- ==== Sys2Proof/Laws/Encoding.lean ====
section
/-! SUPPORT. The fields of a word and the word of fields undo each other (30_encoding.md R140). -/

-- One theorem after another: many at once exceed the memory that check.sh allows for threads.
set_option Elab.async false

namespace Sys2Proof

theorem toNat_wordOf (f : Fields) :
    (wordOf f).toNat = f.opc.toNat * 2 ^ 25 + f.v.toNat * 2 ^ 24 + f.rd.val * 2 ^ 20 + f.ra.val * 2 ^ 16
      + f.rb.val * 2 ^ 12 + f.rc.val * 2 ^ 8 + f.imm.toNat := by
  have := f.opc.isLt
  have := f.imm.isLt
  have := f.v.toNat_lt
  have := f.rd.isLt
  have := f.ra.isLt
  have := f.rb.isLt
  have := f.rc.isLt
  simp only [wordOf, BitVec.toNat_ofNat]
  omega

/-- Every field of a word made from fields is that field. -/
theorem fieldsOf_wordOf (f : Fields) : fieldsOf (wordOf f) = f := by
  have h := toNat_wordOf f
  have := f.opc.isLt
  have := f.imm.isLt
  have := f.v.toNat_lt
  have := f.rd.isLt
  have := f.ra.isLt
  have := f.rb.isLt
  have := f.rc.isLt
  obtain ⟨opc, v, rd, ra, rb, rc, imm⟩ := f
  simp only at *
  unfold fieldsOf
  rw [h]
  congr 1
  · apply BitVec.eq_of_toNat_eq
    simp only [BitVec.toNat_ofNat]
    omega
  · cases v <;> simp <;> omega
  · apply Fin.ext
    simp only [Fin.ofNat]
    omega
  · apply Fin.ext
    simp only [Fin.ofNat]
    omega
  · apply Fin.ext
    simp only [Fin.ofNat]
    omega
  · apply Fin.ext
    simp only [Fin.ofNat]
    omega
  · apply BitVec.eq_of_toNat_eq
    simp only [BitVec.toNat_ofNat]
    omega

/-- The word made from a word's fields is that word: the fields leave no bit out. -/
theorem wordOf_fieldsOf (w : Word) : wordOf (fieldsOf w) = w := by
  apply BitVec.eq_of_toNat_eq
  rw [toNat_wordOf]
  have := w.isLt
  have hv : (w.toNat / 2 ^ 24 % 2 == 1).toNat = w.toNat / 2 ^ 24 % 2 := by
    rcases Nat.mod_two_eq_zero_or_one (w.toNat / 2 ^ 24) with h | h <;> rw [h] <;> rfl
  simp only [fieldsOf, BitVec.toNat_ofNat, Fin.ofNat, hv]
  omega

/-- A row that the table assigns to an opcode carries that opcode. -/
theorem opc_of_rowOf {o : BitVec 7} {r : Row} (h : rowOf o = some r) : r.opc = o := by
  simpa using List.find?_some h

/-- A row that the table assigns to an opcode is a row of the table. -/
theorem mem_of_rowOf {o : BitVec 7} {r : Row} (h : rowOf o = some r) : r ∈ rows := List.mem_of_find?_eq_some h

/-- What decodes: the row of the word's opcode, if the fields it does not use are zero, builds the command. -/
theorem decode_of_row {w : Word} {f : Fields} {r : Row} (hf : fieldsOf w = f) (hr : rowOf f.opc = some r)
    (hz : unusedZero r.uses f = true) : decode w = .ok (r.build f) := by
  subst hf
  unfold decode
  simp only [hr, hz, if_true]

/-- All that a legal word can be: its opcode's row, with the fields that row does not use zero. -/
theorem row_of_decode {w : Word} {i : Instr} (h : decode w = .ok i) :
    ∃ r, rowOf (fieldsOf w).opc = some r ∧ unusedZero r.uses (fieldsOf w) = true ∧ i = r.build (fieldsOf w) := by
  unfold decode at h
  split at h
  · cases h
  · rename_i r hr
    split at h
    · rename_i hz
      cases h
      exact ⟨r, hr, hz, rfl⟩
    · cases h

end Sys2Proof
end

