-- ==== Sys2Proof/Laws/Primes.lean ====
section
/-! SUPPORT. The field prime and the group order are prime, by Lucas certificates: for each prime a base of full order and
the factors of the number below it. -/

-- One theorem after another: many at once exceed the memory that check.sh allows for threads.
set_option Elab.async false

namespace Sys2Proof.Machine

/-- Lucas's criterion, with the factors of n-1 listed with their exponents and the powers computed by `powMod`. -/
theorem prime_of_certificate (n a : Nat) (fs : List (Nat × Nat)) (hn : n < 2 ^ 256) (h1 : 1 < n)
    (hfs : n - 1 = (fs.map fun f => f.1 ^ f.2).prod) (hp : ∀ f ∈ fs, f.1.Prime)
    (ha : powMod n a (n - 1) % n = 1) (hne : ∀ f ∈ fs, powMod n a ((n - 1) / f.1) % n ≠ 1) : n.Prime := by
  have pow_one_iff : ∀ e, e < 2 ^ 256 → ((a : ZMod n) ^ e = 1 ↔ powMod n a e % n = 1) := fun e he => by
    rw [powMod_eq n a e he]
    have : ((a ^ e : Nat) : ZMod n) = ((1 : Nat) : ZMod n) ↔ a ^ e % n = 1 % n := by
      rw [ZMod.natCast_eq_natCast_iff, Nat.ModEq]
    rw [Nat.mod_eq_of_lt h1] at this
    simpa using this
  refine lucas_primality n (a : ZMod n) ((pow_one_iff _ (by omega)).2 ha) fun q hq hdvd => ?_
  rw [hfs, (Nat.prime_iff.1 hq).dvd_prod_iff] at hdvd
  obtain ⟨x, hx, hqx⟩ := hdvd
  obtain ⟨f, hf, rfl⟩ := List.mem_map.1 hx
  have hqf : q = f.1 := (Nat.prime_dvd_prime_iff_eq hq (hp f hf)).1 (hq.dvd_of_dvd_pow hqx)
  subst hqf
  have : (n - 1) / f.1 ≤ n - 1 := Nat.div_le_self _ _
  rw [Ne, pow_one_iff _ (by omega)]
  exact hne f hf

theorem prime_31757755568855353 : Nat.Prime 31757755568855353 := by
  refine prime_of_certificate _ 10 [(2, 3), (3, 1), (31, 1), (107, 1), (223, 1), (4153, 1), (430751, 1)] (by norm_num) (by norm_num)
    (by norm_num) ?_ (by decide +kernel) (by decide +kernel)
  simp only [List.forall_mem_cons, List.not_mem_nil, false_imp_iff, implies_true, and_true]
  exact ⟨by norm_num, by norm_num, by norm_num, by norm_num, by norm_num, by norm_num, by norm_num⟩

theorem prime_2773320623 : Nat.Prime 2773320623 := by
  refine prime_of_certificate _ 5 [(2, 1), (2437, 1), (569003, 1)] (by norm_num) (by norm_num)
    (by norm_num) ?_ (by decide +kernel) (by decide +kernel)
  simp only [List.forall_mem_cons, List.not_mem_nil, false_imp_iff, implies_true, and_true]
  exact ⟨by norm_num, by norm_num, by norm_num⟩

theorem prime_72106336199 : Nat.Prime 72106336199 := by
  refine prime_of_certificate _ 7 [(2, 1), (13, 1), (2773320623, 1)] (by norm_num) (by norm_num)
    (by norm_num) ?_ (by decide +kernel) (by decide +kernel)
  simp only [List.forall_mem_cons, List.not_mem_nil, false_imp_iff, implies_true, and_true]
  exact ⟨by norm_num, by norm_num, prime_2773320623⟩

theorem prime_1919519569386763 : Nat.Prime 1919519569386763 := by
  refine prime_of_certificate _ 2 [(2, 1), (3, 1), (7, 1), (19, 1), (47, 2), (127, 1), (8574133, 1)] (by norm_num) (by norm_num)
    (by norm_num) ?_ (by decide +kernel) (by decide +kernel)
  simp only [List.forall_mem_cons, List.not_mem_nil, false_imp_iff, implies_true, and_true]
  exact ⟨by norm_num, by norm_num, by norm_num, by norm_num, by norm_num, by norm_num, by norm_num⟩

theorem prime_75445702479781427272750846543864801 : Nat.Prime 75445702479781427272750846543864801 := by
  refine prime_of_certificate _ 7 [(2, 5), (3, 2), (5, 2), (75707, 1), (72106336199, 1), (1919519569386763, 1)] (by norm_num) (by norm_num)
    (by norm_num) ?_ (by decide +kernel) (by decide +kernel)
  simp only [List.forall_mem_cons, List.not_mem_nil, false_imp_iff, implies_true, and_true]
  exact ⟨by norm_num, by norm_num, by norm_num, by norm_num, prime_72106336199, prime_1919519569386763⟩

theorem prime_74058212732561358302231226437062788676166966415465897661863160754340907 : Nat.Prime 74058212732561358302231226437062788676166966415465897661863160754340907 := by
  refine prime_of_certificate _ 2 [(2, 1), (3, 1), (353, 1), (57467, 1), (132049, 1), (1923133, 1), (31757755568855353, 1), (75445702479781427272750846543864801, 1)] (by norm_num) (by norm_num)
    (by norm_num) ?_ (by decide +kernel) (by decide +kernel)
  simp only [List.forall_mem_cons, List.not_mem_nil, false_imp_iff, implies_true, and_true]
  exact ⟨by norm_num, by norm_num, by norm_num, by norm_num, by norm_num, by norm_num, prime_31757755568855353, prime_75445702479781427272750846543864801⟩

/-- The field prime 2^255 - 19 is prime (00_scope.md R9). -/
theorem fieldPrime_prime : Nat.Prime fieldPrime := by
  refine prime_of_certificate _ 2 [(2, 2), (3, 1), (65147, 1), (74058212732561358302231226437062788676166966415465897661863160754340907, 1)] (by norm_num) (by norm_num)
    (by norm_num) ?_ (by decide +kernel) (by decide +kernel)
  simp only [List.forall_mem_cons, List.not_mem_nil, false_imp_iff, implies_true, and_true]
  exact ⟨by norm_num, by norm_num, by norm_num, prime_74058212732561358302231226437062788676166966415465897661863160754340907⟩

theorem prime_14741173 : Nat.Prime 14741173 := by
  refine prime_of_certificate _ 2 [(2, 2), (3, 2), (409477, 1)] (by norm_num) (by norm_num)
    (by norm_num) ?_ (by decide +kernel) (by decide +kernel)
  simp only [List.forall_mem_cons, List.not_mem_nil, false_imp_iff, implies_true, and_true]
  exact ⟨by norm_num, by norm_num, by norm_num⟩

theorem prime_58964693 : Nat.Prime 58964693 := by
  refine prime_of_certificate _ 2 [(2, 2), (14741173, 1)] (by norm_num) (by norm_num)
    (by norm_num) ?_ (by decide +kernel) (by decide +kernel)
  simp only [List.forall_mem_cons, List.not_mem_nil, false_imp_iff, implies_true, and_true]
  exact ⟨by norm_num, prime_14741173⟩

theorem prime_3044861653679985063343 : Nat.Prime 3044861653679985063343 := by
  refine prime_of_certificate _ 5 [(2, 1), (3, 1), (11, 1), (30703, 1), (82163, 1), (132667, 1), (137849, 1)] (by norm_num) (by norm_num)
    (by norm_num) ?_ (by decide +kernel) (by decide +kernel)
  simp only [List.forall_mem_cons, List.not_mem_nil, false_imp_iff, implies_true, and_true]
  exact ⟨by norm_num, by norm_num, by norm_num, by norm_num, by norm_num, by norm_num, by norm_num⟩

theorem prime_198211423230930754013084525763697 : Nat.Prime 198211423230930754013084525763697 := by
  refine prime_of_certificate _ 5 [(2, 4), (3, 1), (23, 1), (58964693, 1), (3044861653679985063343, 1)] (by norm_num) (by norm_num)
    (by norm_num) ?_ (by decide +kernel) (by decide +kernel)
  simp only [List.forall_mem_cons, List.not_mem_nil, false_imp_iff, implies_true, and_true]
  exact ⟨by norm_num, by norm_num, by norm_num, prime_58964693, prime_3044861653679985063343⟩

theorem prime_292386187 : Nat.Prime 292386187 := by
  refine prime_of_certificate _ 2 [(2, 1), (3, 4), (307, 1), (5879, 1)] (by norm_num) (by norm_num)
    (by norm_num) ?_ (by decide +kernel) (by decide +kernel)
  simp only [List.forall_mem_cons, List.not_mem_nil, false_imp_iff, implies_true, and_true]
  exact ⟨by norm_num, by norm_num, by norm_num, by norm_num⟩

theorem prime_213441916511 : Nat.Prime 213441916511 := by
  refine prime_of_certificate _ 13 [(2, 1), (5, 1), (73, 1), (292386187, 1)] (by norm_num) (by norm_num)
    (by norm_num) ?_ (by decide +kernel) (by decide +kernel)
  simp only [List.forall_mem_cons, List.not_mem_nil, false_imp_iff, implies_true, and_true]
  exact ⟨by norm_num, by norm_num, by norm_num, prime_292386187⟩

theorem prime_1257559732178653 : Nat.Prime 1257559732178653 := by
  refine prime_of_certificate _ 2 [(2, 2), (3, 1), (7, 1), (23, 1), (531581, 1), (1224481, 1)] (by norm_num) (by norm_num)
    (by norm_num) ?_ (by decide +kernel) (by decide +kernel)
  simp only [List.forall_mem_cons, List.not_mem_nil, false_imp_iff, implies_true, and_true]
  exact ⟨by norm_num, by norm_num, by norm_num, by norm_num, by norm_num, by norm_num⟩

theorem prime_4434155615661930479 : Nat.Prime 4434155615661930479 := by
  refine prime_of_certificate _ 17 [(2, 1), (41, 1), (43, 1), (1257559732178653, 1)] (by norm_num) (by norm_num)
    (by norm_num) ?_ (by decide +kernel) (by decide +kernel)
  simp only [List.forall_mem_cons, List.not_mem_nil, false_imp_iff, implies_true, and_true]
  exact ⟨by norm_num, by norm_num, by norm_num, prime_1257559732178653⟩

theorem prime_172054593956031949258510691 : Nat.Prime 172054593956031949258510691 := by
  refine prime_of_certificate _ 2 [(2, 1), (5, 1), (1361, 1), (2851, 1), (4434155615661930479, 1)] (by norm_num) (by norm_num)
    (by norm_num) ?_ (by decide +kernel) (by decide +kernel)
  simp only [List.forall_mem_cons, List.not_mem_nil, false_imp_iff, implies_true, and_true]
  exact ⟨by norm_num, by norm_num, by norm_num, by norm_num, prime_4434155615661930479⟩

theorem prime_19757330305831588566944191468367130476339 : Nat.Prime 19757330305831588566944191468367130476339 := by
  refine prime_of_certificate _ 2 [(2, 1), (269, 1), (213441916511, 1), (172054593956031949258510691, 1)] (by norm_num) (by norm_num)
    (by norm_num) ?_ (by decide +kernel) (by decide +kernel)
  simp only [List.forall_mem_cons, List.not_mem_nil, false_imp_iff, implies_true, and_true]
  exact ⟨by norm_num, by norm_num, prime_213441916511, prime_172054593956031949258510691⟩

theorem prime_276602624281642239937218680557139826668747 : Nat.Prime 276602624281642239937218680557139826668747 := by
  refine prime_of_certificate _ 2 [(2, 1), (7, 1), (19757330305831588566944191468367130476339, 1)] (by norm_num) (by norm_num)
    (by norm_num) ?_ (by decide +kernel) (by decide +kernel)
  simp only [List.forall_mem_cons, List.not_mem_nil, false_imp_iff, implies_true, and_true]
  exact ⟨by norm_num, by norm_num, prime_19757330305831588566944191468367130476339⟩

/-- The group order is prime (00_scope.md R11). -/
theorem groupOrder_prime : Nat.Prime groupOrder := by
  refine prime_of_certificate _ 2 [(2, 2), (3, 1), (11, 1), (198211423230930754013084525763697, 1), (276602624281642239937218680557139826668747, 1)] (by norm_num) (by norm_num)
    (by norm_num) ?_ (by decide +kernel) (by decide +kernel)
  simp only [List.forall_mem_cons, List.not_mem_nil, false_imp_iff, implies_true, and_true]
  exact ⟨by norm_num, by norm_num, by norm_num, prime_198211423230930754013084525763697, prime_276602624281642239937218680557139826668747⟩

end Sys2Proof.Machine
end

