-- ==== Sys2Proof/Laws/FieldHom.lean ====
section
/-! SUPPORT. The field values as elements of `ZMod fieldPrime`, a field to Mathlib: the map keeps every operation of
Machine/FieldArith.lean, so that a claim about field values can be proved by the tactics for fields. -/

-- One theorem after another: many at once exceed the memory that check.sh allows for threads.
set_option Elab.async false

namespace Sys2Proof.Machine

/-- A field value as an element of Mathlib's field. -/
def inField (x : Fe) : ZMod fieldPrime := (x.val : ZMod fieldPrime)

theorem inField_inj {x y : Fe} : inField x = inField y ↔ x = y := by
  refine ⟨fun h => ?_, fun h => h ▸ rfl⟩
  have := (ZMod.natCast_eq_natCast_iff' x.val y.val fieldPrime).1 h
  rw [Nat.mod_eq_of_lt x.isLt, Nat.mod_eq_of_lt y.isLt] at this
  exact Fin.ext this

/-- An integer's residue, as an element of Mathlib's field. -/
theorem inField_of_val {x : Fe} {n : Nat} (h : x.val = n % fieldPrime) : inField x = (n : ZMod fieldPrime) := by
  rw [inField, h, ZMod.natCast_mod]

@[simp] theorem inField_zero : inField 0 = 0 := by simpa using inField_of_val (x := 0) (n := 0) rfl

@[simp] theorem inField_one : inField 1 = 1 := by simpa using inField_of_val (x := 1) (n := 1) rfl

@[simp] theorem inField_add (x y : Fe) : inField (x + y) = inField x + inField y := by
  rw [inField_of_val (Fin.val_add x y), Nat.cast_add]
  rfl

@[simp] theorem inField_mul (x y : Fe) : inField (x * y) = inField x * inField y := by
  rw [inField_of_val (Fin.val_mul x y), Nat.cast_mul]
  rfl

@[simp] theorem inField_sub (x y : Fe) : inField (x - y) = inField x - inField y := by
  have h : inField (x - y) + inField y = inField x := by
    rw [← inField_add]
    congr 1
    apply Fin.ext
    have hx := x.isLt
    have hy := y.isLt
    simp only [Fin.val_add, Fin.sub_def, Nat.mod_add_mod]
    rw [show fieldPrime - y.val + x.val + y.val = x.val + fieldPrime by omega, Nat.add_mod_right, Nat.mod_eq_of_lt hx]
  rw [← h, add_sub_cancel_right]

@[simp] theorem inField_neg (x : Fe) : inField (-x) = -inField x := by
  have h : inField (-x) + inField x = 0 := by
    rw [← inField_add, ← inField_zero]
    congr 1
    apply Fin.ext
    have hx := x.isLt
    simp only [Fin.val_add, Fin.neg_def, Nat.mod_add_mod]
    rw [show fieldPrime - x.val + x.val = fieldPrime by omega, Nat.mod_self]
    rfl
  exact eq_neg_of_add_eq_zero_left h

theorem inField_fePow (x : Fe) (e : Nat) (he : e < 2 ^ 256) : inField (fePow x e) = inField x ^ e := by
  rw [inField_of_val (val_fePow x e he), Nat.cast_pow]
  rfl

/-- Inversion is that of Mathlib's field, which gives 0 for 0 too. -/
@[simp] theorem inField_feInv (x : Fe) : inField (feInv x) = (inField x)⁻¹ := by
  have : Fact (Nat.Prime fieldPrime) := ⟨fieldPrime_prime⟩
  rw [feInv, inField_fePow _ _ (by norm_num)]
  by_cases h : inField x = 0
  · rw [h, inv_zero, zero_pow (by norm_num)]
  · refine eq_inv_of_mul_eq_one_left ?_
    rw [← pow_succ, show fieldPrime - 2 + 1 = fieldPrime - 1 by norm_num]
    exact ZMod.pow_card_sub_one_eq_one h

@[simp] theorem inField_feDiv (x y : Fe) : inField (feDiv x y) = inField x * (inField y)⁻¹ := by
  rw [feDiv, inField_mul, inField_feInv]

end Sys2Proof.Machine
end

