-- ==== Sys2Proof/Laws/State.lean ====
section
/-! SUPPORT. One lemma per field per state update, true by definition, so that no proof unfolds a record update. -/

-- One theorem after another: many at once exceed the memory that check.sh allows for threads.
set_option Elab.async false

namespace Sys2Proof.Machine

@[simp] theorem setF_f (s : State) (i : FReg) (v : Fe) : (s.setF i v).f = s.f.set i (some v) := rfl
@[simp] theorem setF_sc (s : State) (i : FReg) (v : Fe) : (s.setF i v).sc = s.sc := rfl
@[simp] theorem setF_g (s : State) (i : FReg) (v : Fe) : (s.setF i v).g = s.g := rfl
@[simp] theorem setF_b (s : State) (i : FReg) (v : Fe) : (s.setF i v).b = s.b := rfl
@[simp] theorem setF_pc (s : State) (i : FReg) (v : Fe) : (s.setF i v).pc = s.pc := rfl
@[simp] theorem setF_busy (s : State) (i : FReg) (v : Fe) : (s.setF i v).busy = s.busy := rfl
@[simp] theorem setF_done (s : State) (i : FReg) (v : Fe) : (s.setF i v).done = s.done := rfl
@[simp] theorem setF_err (s : State) (i : FReg) (v : Fe) : (s.setF i v).err = s.err := rfl
@[simp] theorem setF_herr (s : State) (i : FReg) (v : Fe) : (s.setF i v).herr = s.herr := rfl
@[simp] theorem setF_errcode (s : State) (i : FReg) (v : Fe) : (s.setF i v).errcode = s.errcode := rfl
@[simp] theorem setF_ieDone (s : State) (i : FReg) (v : Fe) : (s.setF i v).ieDone = s.ieDone := rfl
@[simp] theorem setF_ieErr (s : State) (i : FReg) (v : Fe) : (s.setF i v).ieErr = s.ieErr := rfl
@[simp] theorem setF_errpc (s : State) (i : FReg) (v : Fe) : (s.setF i v).errpc = s.errpc := rfl
@[simp] theorem setF_errword (s : State) (i : FReg) (v : Fe) : (s.setF i v).errword = s.errword := rfl
@[simp] theorem setF_retired (s : State) (i : FReg) (v : Fe) : (s.setF i v).retired = s.retired := rfl
@[simp] theorem setF_imem (s : State) (i : FReg) (v : Fe) : (s.setF i v).imem = s.imem := rfl
@[simp] theorem setF_dmem (s : State) (i : FReg) (v : Fe) : (s.setF i v).dmem = s.dmem := rfl
@[simp] theorem setF_draws (s : State) (i : FReg) (v : Fe) : (s.setF i v).draws = s.draws := rfl
@[simp] theorem setF_powerOn (s : State) (i : FReg) (v : Fe) : (s.setF i v).powerOn = s.powerOn := rfl
@[simp] theorem setF_readData (s : State) (i : FReg) (v : Fe) : (s.setF i v).readData = s.readData := rfl
@[simp] theorem setF_agenda (s : State) (i : FReg) (v : Fe) : (s.setF i v).agenda = s.agenda := rfl

@[simp] theorem setS_f (s : State) (i : SReg) (v : Scalar) : (s.setS i v).f = s.f := rfl
@[simp] theorem setS_sc (s : State) (i : SReg) (v : Scalar) : (s.setS i v).sc = s.sc.set i (some v) := rfl
@[simp] theorem setS_g (s : State) (i : SReg) (v : Scalar) : (s.setS i v).g = s.g := rfl
@[simp] theorem setS_b (s : State) (i : SReg) (v : Scalar) : (s.setS i v).b = s.b := rfl
@[simp] theorem setS_pc (s : State) (i : SReg) (v : Scalar) : (s.setS i v).pc = s.pc := rfl
@[simp] theorem setS_busy (s : State) (i : SReg) (v : Scalar) : (s.setS i v).busy = s.busy := rfl
@[simp] theorem setS_done (s : State) (i : SReg) (v : Scalar) : (s.setS i v).done = s.done := rfl
@[simp] theorem setS_err (s : State) (i : SReg) (v : Scalar) : (s.setS i v).err = s.err := rfl
@[simp] theorem setS_herr (s : State) (i : SReg) (v : Scalar) : (s.setS i v).herr = s.herr := rfl
@[simp] theorem setS_errcode (s : State) (i : SReg) (v : Scalar) : (s.setS i v).errcode = s.errcode := rfl
@[simp] theorem setS_ieDone (s : State) (i : SReg) (v : Scalar) : (s.setS i v).ieDone = s.ieDone := rfl
@[simp] theorem setS_ieErr (s : State) (i : SReg) (v : Scalar) : (s.setS i v).ieErr = s.ieErr := rfl
@[simp] theorem setS_errpc (s : State) (i : SReg) (v : Scalar) : (s.setS i v).errpc = s.errpc := rfl
@[simp] theorem setS_errword (s : State) (i : SReg) (v : Scalar) : (s.setS i v).errword = s.errword := rfl
@[simp] theorem setS_retired (s : State) (i : SReg) (v : Scalar) : (s.setS i v).retired = s.retired := rfl
@[simp] theorem setS_imem (s : State) (i : SReg) (v : Scalar) : (s.setS i v).imem = s.imem := rfl
@[simp] theorem setS_dmem (s : State) (i : SReg) (v : Scalar) : (s.setS i v).dmem = s.dmem := rfl
@[simp] theorem setS_draws (s : State) (i : SReg) (v : Scalar) : (s.setS i v).draws = s.draws := rfl
@[simp] theorem setS_powerOn (s : State) (i : SReg) (v : Scalar) : (s.setS i v).powerOn = s.powerOn := rfl
@[simp] theorem setS_readData (s : State) (i : SReg) (v : Scalar) : (s.setS i v).readData = s.readData := rfl
@[simp] theorem setS_agenda (s : State) (i : SReg) (v : Scalar) : (s.setS i v).agenda = s.agenda := rfl

@[simp] theorem setG_f (s : State) (i : GReg) (v : PointReg) : (s.setG i v).f = s.f := rfl
@[simp] theorem setG_sc (s : State) (i : GReg) (v : PointReg) : (s.setG i v).sc = s.sc := rfl
@[simp] theorem setG_g (s : State) (i : GReg) (v : PointReg) : (s.setG i v).g = s.g.set i v := rfl
@[simp] theorem setG_b (s : State) (i : GReg) (v : PointReg) : (s.setG i v).b = s.b := rfl
@[simp] theorem setG_pc (s : State) (i : GReg) (v : PointReg) : (s.setG i v).pc = s.pc := rfl
@[simp] theorem setG_busy (s : State) (i : GReg) (v : PointReg) : (s.setG i v).busy = s.busy := rfl
@[simp] theorem setG_done (s : State) (i : GReg) (v : PointReg) : (s.setG i v).done = s.done := rfl
@[simp] theorem setG_err (s : State) (i : GReg) (v : PointReg) : (s.setG i v).err = s.err := rfl
@[simp] theorem setG_herr (s : State) (i : GReg) (v : PointReg) : (s.setG i v).herr = s.herr := rfl
@[simp] theorem setG_errcode (s : State) (i : GReg) (v : PointReg) : (s.setG i v).errcode = s.errcode := rfl
@[simp] theorem setG_ieDone (s : State) (i : GReg) (v : PointReg) : (s.setG i v).ieDone = s.ieDone := rfl
@[simp] theorem setG_ieErr (s : State) (i : GReg) (v : PointReg) : (s.setG i v).ieErr = s.ieErr := rfl
@[simp] theorem setG_errpc (s : State) (i : GReg) (v : PointReg) : (s.setG i v).errpc = s.errpc := rfl
@[simp] theorem setG_errword (s : State) (i : GReg) (v : PointReg) : (s.setG i v).errword = s.errword := rfl
@[simp] theorem setG_retired (s : State) (i : GReg) (v : PointReg) : (s.setG i v).retired = s.retired := rfl
@[simp] theorem setG_imem (s : State) (i : GReg) (v : PointReg) : (s.setG i v).imem = s.imem := rfl
@[simp] theorem setG_dmem (s : State) (i : GReg) (v : PointReg) : (s.setG i v).dmem = s.dmem := rfl
@[simp] theorem setG_draws (s : State) (i : GReg) (v : PointReg) : (s.setG i v).draws = s.draws := rfl
@[simp] theorem setG_powerOn (s : State) (i : GReg) (v : PointReg) : (s.setG i v).powerOn = s.powerOn := rfl
@[simp] theorem setG_readData (s : State) (i : GReg) (v : PointReg) : (s.setG i v).readData = s.readData := rfl
@[simp] theorem setG_agenda (s : State) (i : GReg) (v : PointReg) : (s.setG i v).agenda = s.agenda := rfl

@[simp] theorem setB_f (s : State) (i : BReg) (v : Bool) : (s.setB i v).f = s.f := rfl
@[simp] theorem setB_sc (s : State) (i : BReg) (v : Bool) : (s.setB i v).sc = s.sc := rfl
@[simp] theorem setB_g (s : State) (i : BReg) (v : Bool) : (s.setB i v).g = s.g := rfl
@[simp] theorem setB_b (s : State) (i : BReg) (v : Bool) : (s.setB i v).b = s.b.set i v := rfl
@[simp] theorem setB_pc (s : State) (i : BReg) (v : Bool) : (s.setB i v).pc = s.pc := rfl
@[simp] theorem setB_busy (s : State) (i : BReg) (v : Bool) : (s.setB i v).busy = s.busy := rfl
@[simp] theorem setB_done (s : State) (i : BReg) (v : Bool) : (s.setB i v).done = s.done := rfl
@[simp] theorem setB_err (s : State) (i : BReg) (v : Bool) : (s.setB i v).err = s.err := rfl
@[simp] theorem setB_herr (s : State) (i : BReg) (v : Bool) : (s.setB i v).herr = s.herr := rfl
@[simp] theorem setB_errcode (s : State) (i : BReg) (v : Bool) : (s.setB i v).errcode = s.errcode := rfl
@[simp] theorem setB_ieDone (s : State) (i : BReg) (v : Bool) : (s.setB i v).ieDone = s.ieDone := rfl
@[simp] theorem setB_ieErr (s : State) (i : BReg) (v : Bool) : (s.setB i v).ieErr = s.ieErr := rfl
@[simp] theorem setB_errpc (s : State) (i : BReg) (v : Bool) : (s.setB i v).errpc = s.errpc := rfl
@[simp] theorem setB_errword (s : State) (i : BReg) (v : Bool) : (s.setB i v).errword = s.errword := rfl
@[simp] theorem setB_retired (s : State) (i : BReg) (v : Bool) : (s.setB i v).retired = s.retired := rfl
@[simp] theorem setB_imem (s : State) (i : BReg) (v : Bool) : (s.setB i v).imem = s.imem := rfl
@[simp] theorem setB_dmem (s : State) (i : BReg) (v : Bool) : (s.setB i v).dmem = s.dmem := rfl
@[simp] theorem setB_draws (s : State) (i : BReg) (v : Bool) : (s.setB i v).draws = s.draws := rfl
@[simp] theorem setB_powerOn (s : State) (i : BReg) (v : Bool) : (s.setB i v).powerOn = s.powerOn := rfl
@[simp] theorem setB_readData (s : State) (i : BReg) (v : Bool) : (s.setB i v).readData = s.readData := rfl
@[simp] theorem setB_agenda (s : State) (i : BReg) (v : Bool) : (s.setB i v).agenda = s.agenda := rfl

@[simp] theorem useDraws_f (s : State) (k : Nat) : (s.useDraws k).f = s.f := rfl
@[simp] theorem useDraws_sc (s : State) (k : Nat) : (s.useDraws k).sc = s.sc := rfl
@[simp] theorem useDraws_g (s : State) (k : Nat) : (s.useDraws k).g = s.g := rfl
@[simp] theorem useDraws_b (s : State) (k : Nat) : (s.useDraws k).b = s.b := rfl
@[simp] theorem useDraws_pc (s : State) (k : Nat) : (s.useDraws k).pc = s.pc := rfl
@[simp] theorem useDraws_busy (s : State) (k : Nat) : (s.useDraws k).busy = s.busy := rfl
@[simp] theorem useDraws_done (s : State) (k : Nat) : (s.useDraws k).done = s.done := rfl
@[simp] theorem useDraws_err (s : State) (k : Nat) : (s.useDraws k).err = s.err := rfl
@[simp] theorem useDraws_herr (s : State) (k : Nat) : (s.useDraws k).herr = s.herr := rfl
@[simp] theorem useDraws_errcode (s : State) (k : Nat) : (s.useDraws k).errcode = s.errcode := rfl
@[simp] theorem useDraws_ieDone (s : State) (k : Nat) : (s.useDraws k).ieDone = s.ieDone := rfl
@[simp] theorem useDraws_ieErr (s : State) (k : Nat) : (s.useDraws k).ieErr = s.ieErr := rfl
@[simp] theorem useDraws_errpc (s : State) (k : Nat) : (s.useDraws k).errpc = s.errpc := rfl
@[simp] theorem useDraws_errword (s : State) (k : Nat) : (s.useDraws k).errword = s.errword := rfl
@[simp] theorem useDraws_retired (s : State) (k : Nat) : (s.useDraws k).retired = s.retired := rfl
@[simp] theorem useDraws_imem (s : State) (k : Nat) : (s.useDraws k).imem = s.imem := rfl
@[simp] theorem useDraws_dmem (s : State) (k : Nat) : (s.useDraws k).dmem = s.dmem := rfl
@[simp] theorem useDraws_draws (s : State) (k : Nat) : (s.useDraws k).draws = s.draws + k := rfl
@[simp] theorem useDraws_powerOn (s : State) (k : Nat) : (s.useDraws k).powerOn = s.powerOn := rfl
@[simp] theorem useDraws_readData (s : State) (k : Nat) : (s.useDraws k).readData = s.readData := rfl
@[simp] theorem useDraws_agenda (s : State) (k : Nat) : (s.useDraws k).agenda = s.agenda := rfl

@[simp] theorem dmemWrite_f (s : State) (slot : BitVec 8) (bytes : List Byte) : (s.dmemWrite slot bytes).f = s.f := rfl
@[simp] theorem dmemWrite_sc (s : State) (slot : BitVec 8) (bytes : List Byte) : (s.dmemWrite slot bytes).sc = s.sc := rfl
@[simp] theorem dmemWrite_g (s : State) (slot : BitVec 8) (bytes : List Byte) : (s.dmemWrite slot bytes).g = s.g := rfl
@[simp] theorem dmemWrite_b (s : State) (slot : BitVec 8) (bytes : List Byte) : (s.dmemWrite slot bytes).b = s.b := rfl
@[simp] theorem dmemWrite_pc (s : State) (slot : BitVec 8) (bytes : List Byte) : (s.dmemWrite slot bytes).pc = s.pc := rfl
@[simp] theorem dmemWrite_busy (s : State) (slot : BitVec 8) (bytes : List Byte) : (s.dmemWrite slot bytes).busy = s.busy := rfl
@[simp] theorem dmemWrite_done (s : State) (slot : BitVec 8) (bytes : List Byte) : (s.dmemWrite slot bytes).done = s.done := rfl
@[simp] theorem dmemWrite_err (s : State) (slot : BitVec 8) (bytes : List Byte) : (s.dmemWrite slot bytes).err = s.err := rfl
@[simp] theorem dmemWrite_herr (s : State) (slot : BitVec 8) (bytes : List Byte) : (s.dmemWrite slot bytes).herr = s.herr := rfl
@[simp] theorem dmemWrite_errcode (s : State) (slot : BitVec 8) (bytes : List Byte) : (s.dmemWrite slot bytes).errcode = s.errcode := rfl
@[simp] theorem dmemWrite_ieDone (s : State) (slot : BitVec 8) (bytes : List Byte) : (s.dmemWrite slot bytes).ieDone = s.ieDone := rfl
@[simp] theorem dmemWrite_ieErr (s : State) (slot : BitVec 8) (bytes : List Byte) : (s.dmemWrite slot bytes).ieErr = s.ieErr := rfl
@[simp] theorem dmemWrite_errpc (s : State) (slot : BitVec 8) (bytes : List Byte) : (s.dmemWrite slot bytes).errpc = s.errpc := rfl
@[simp] theorem dmemWrite_errword (s : State) (slot : BitVec 8) (bytes : List Byte) : (s.dmemWrite slot bytes).errword = s.errword := rfl
@[simp] theorem dmemWrite_retired (s : State) (slot : BitVec 8) (bytes : List Byte) : (s.dmemWrite slot bytes).retired = s.retired := rfl
@[simp] theorem dmemWrite_imem (s : State) (slot : BitVec 8) (bytes : List Byte) : (s.dmemWrite slot bytes).imem = s.imem := rfl
@[simp] theorem dmemWrite_dmem (s : State) (slot : BitVec 8) (bytes : List Byte) : (s.dmemWrite slot bytes).dmem = Memory.writeRun s.dmem (slotBase slot) bytes := rfl
@[simp] theorem dmemWrite_draws (s : State) (slot : BitVec 8) (bytes : List Byte) : (s.dmemWrite slot bytes).draws = s.draws := rfl
@[simp] theorem dmemWrite_powerOn (s : State) (slot : BitVec 8) (bytes : List Byte) : (s.dmemWrite slot bytes).powerOn = s.powerOn := rfl
@[simp] theorem dmemWrite_readData (s : State) (slot : BitVec 8) (bytes : List Byte) : (s.dmemWrite slot bytes).readData = s.readData := rfl
@[simp] theorem dmemWrite_agenda (s : State) (slot : BitVec 8) (bytes : List Byte) : (s.dmemWrite slot bytes).agenda = s.agenda := rfl

@[simp] theorem imemWrite_f (s : State) (k : Nat) (w : Word) : (s.imemWrite k w).f = s.f := rfl
@[simp] theorem imemWrite_sc (s : State) (k : Nat) (w : Word) : (s.imemWrite k w).sc = s.sc := rfl
@[simp] theorem imemWrite_g (s : State) (k : Nat) (w : Word) : (s.imemWrite k w).g = s.g := rfl
@[simp] theorem imemWrite_b (s : State) (k : Nat) (w : Word) : (s.imemWrite k w).b = s.b := rfl
@[simp] theorem imemWrite_pc (s : State) (k : Nat) (w : Word) : (s.imemWrite k w).pc = s.pc := rfl
@[simp] theorem imemWrite_busy (s : State) (k : Nat) (w : Word) : (s.imemWrite k w).busy = s.busy := rfl
@[simp] theorem imemWrite_done (s : State) (k : Nat) (w : Word) : (s.imemWrite k w).done = s.done := rfl
@[simp] theorem imemWrite_err (s : State) (k : Nat) (w : Word) : (s.imemWrite k w).err = s.err := rfl
@[simp] theorem imemWrite_herr (s : State) (k : Nat) (w : Word) : (s.imemWrite k w).herr = s.herr := rfl
@[simp] theorem imemWrite_errcode (s : State) (k : Nat) (w : Word) : (s.imemWrite k w).errcode = s.errcode := rfl
@[simp] theorem imemWrite_ieDone (s : State) (k : Nat) (w : Word) : (s.imemWrite k w).ieDone = s.ieDone := rfl
@[simp] theorem imemWrite_ieErr (s : State) (k : Nat) (w : Word) : (s.imemWrite k w).ieErr = s.ieErr := rfl
@[simp] theorem imemWrite_errpc (s : State) (k : Nat) (w : Word) : (s.imemWrite k w).errpc = s.errpc := rfl
@[simp] theorem imemWrite_errword (s : State) (k : Nat) (w : Word) : (s.imemWrite k w).errword = s.errword := rfl
@[simp] theorem imemWrite_retired (s : State) (k : Nat) (w : Word) : (s.imemWrite k w).retired = s.retired := rfl
@[simp] theorem imemWrite_imem (s : State) (k : Nat) (w : Word) : (s.imemWrite k w).imem = Memory.write s.imem k w := rfl
@[simp] theorem imemWrite_dmem (s : State) (k : Nat) (w : Word) : (s.imemWrite k w).dmem = s.dmem := rfl
@[simp] theorem imemWrite_draws (s : State) (k : Nat) (w : Word) : (s.imemWrite k w).draws = s.draws := rfl
@[simp] theorem imemWrite_powerOn (s : State) (k : Nat) (w : Word) : (s.imemWrite k w).powerOn = s.powerOn := rfl
@[simp] theorem imemWrite_readData (s : State) (k : Nat) (w : Word) : (s.imemWrite k w).readData = s.readData := rfl
@[simp] theorem imemWrite_agenda (s : State) (k : Nat) (w : Word) : (s.imemWrite k w).agenda = s.agenda := rfl

@[simp] theorem errorStop_f (s : State) (e : EngineError) : (s.errorStop e).f = s.f := rfl
@[simp] theorem errorStop_sc (s : State) (e : EngineError) : (s.errorStop e).sc = s.sc := rfl
@[simp] theorem errorStop_g (s : State) (e : EngineError) : (s.errorStop e).g = s.g := rfl
@[simp] theorem errorStop_b (s : State) (e : EngineError) : (s.errorStop e).b = s.b := rfl
@[simp] theorem errorStop_pc (s : State) (e : EngineError) : (s.errorStop e).pc = s.pc := rfl
@[simp] theorem errorStop_busy (s : State) (e : EngineError) : (s.errorStop e).busy = false := rfl
@[simp] theorem errorStop_done (s : State) (e : EngineError) : (s.errorStop e).done = s.done := rfl
@[simp] theorem errorStop_err (s : State) (e : EngineError) : (s.errorStop e).err = true := rfl
@[simp] theorem errorStop_herr (s : State) (e : EngineError) : (s.errorStop e).herr = s.herr := rfl
@[simp] theorem errorStop_errcode (s : State) (e : EngineError) : (s.errorStop e).errcode = errorCode e := rfl
@[simp] theorem errorStop_ieDone (s : State) (e : EngineError) : (s.errorStop e).ieDone = s.ieDone := rfl
@[simp] theorem errorStop_ieErr (s : State) (e : EngineError) : (s.errorStop e).ieErr = s.ieErr := rfl
@[simp] theorem errorStop_errpc (s : State) (e : EngineError) : (s.errorStop e).errpc = s.pc := rfl
@[simp] theorem errorStop_errword (s : State) (e : EngineError) : (s.errorStop e).errword = s.imemWord s.pc.toNat := rfl
@[simp] theorem errorStop_retired (s : State) (e : EngineError) : (s.errorStop e).retired = s.retired := rfl
@[simp] theorem errorStop_imem (s : State) (e : EngineError) : (s.errorStop e).imem = s.imem := rfl
@[simp] theorem errorStop_dmem (s : State) (e : EngineError) : (s.errorStop e).dmem = s.dmem := rfl
@[simp] theorem errorStop_draws (s : State) (e : EngineError) : (s.errorStop e).draws = s.draws := rfl
@[simp] theorem errorStop_powerOn (s : State) (e : EngineError) : (s.errorStop e).powerOn = s.powerOn := rfl
@[simp] theorem errorStop_readData (s : State) (e : EngineError) : (s.errorStop e).readData = s.readData := rfl
@[simp] theorem errorStop_agenda (s : State) (e : EngineError) : (s.errorStop e).agenda = s.agenda := rfl

@[simp] theorem retireHalt_f (s : State) : (s.retireHalt).f = s.f := rfl
@[simp] theorem retireHalt_sc (s : State) : (s.retireHalt).sc = s.sc := rfl
@[simp] theorem retireHalt_g (s : State) : (s.retireHalt).g = s.g := rfl
@[simp] theorem retireHalt_b (s : State) : (s.retireHalt).b = s.b := rfl
@[simp] theorem retireHalt_pc (s : State) : (s.retireHalt).pc = s.pc + 1 := rfl
@[simp] theorem retireHalt_busy (s : State) : (s.retireHalt).busy = false := rfl
@[simp] theorem retireHalt_done (s : State) : (s.retireHalt).done = true := rfl
@[simp] theorem retireHalt_err (s : State) : (s.retireHalt).err = s.err := rfl
@[simp] theorem retireHalt_herr (s : State) : (s.retireHalt).herr = s.herr := rfl
@[simp] theorem retireHalt_errcode (s : State) : (s.retireHalt).errcode = s.errcode := rfl
@[simp] theorem retireHalt_ieDone (s : State) : (s.retireHalt).ieDone = s.ieDone := rfl
@[simp] theorem retireHalt_ieErr (s : State) : (s.retireHalt).ieErr = s.ieErr := rfl
@[simp] theorem retireHalt_errpc (s : State) : (s.retireHalt).errpc = s.errpc := rfl
@[simp] theorem retireHalt_errword (s : State) : (s.retireHalt).errword = s.errword := rfl
@[simp] theorem retireHalt_retired (s : State) : (s.retireHalt).retired = s.retired + 1 := rfl
@[simp] theorem retireHalt_imem (s : State) : (s.retireHalt).imem = s.imem := rfl
@[simp] theorem retireHalt_dmem (s : State) : (s.retireHalt).dmem = s.dmem := rfl
@[simp] theorem retireHalt_draws (s : State) : (s.retireHalt).draws = s.draws := rfl
@[simp] theorem retireHalt_powerOn (s : State) : (s.retireHalt).powerOn = s.powerOn := rfl
@[simp] theorem retireHalt_readData (s : State) : (s.retireHalt).readData = s.readData := rfl
@[simp] theorem retireHalt_agenda (s : State) : (s.retireHalt).agenda = s.agenda := rfl

@[simp] theorem returning_f (s : State) (w : Word) : (s.returning w).f = s.f := rfl
@[simp] theorem returning_sc (s : State) (w : Word) : (s.returning w).sc = s.sc := rfl
@[simp] theorem returning_g (s : State) (w : Word) : (s.returning w).g = s.g := rfl
@[simp] theorem returning_b (s : State) (w : Word) : (s.returning w).b = s.b := rfl
@[simp] theorem returning_pc (s : State) (w : Word) : (s.returning w).pc = s.pc := rfl
@[simp] theorem returning_busy (s : State) (w : Word) : (s.returning w).busy = s.busy := rfl
@[simp] theorem returning_done (s : State) (w : Word) : (s.returning w).done = s.done := rfl
@[simp] theorem returning_err (s : State) (w : Word) : (s.returning w).err = s.err := rfl
@[simp] theorem returning_herr (s : State) (w : Word) : (s.returning w).herr = s.herr := rfl
@[simp] theorem returning_errcode (s : State) (w : Word) : (s.returning w).errcode = s.errcode := rfl
@[simp] theorem returning_ieDone (s : State) (w : Word) : (s.returning w).ieDone = s.ieDone := rfl
@[simp] theorem returning_ieErr (s : State) (w : Word) : (s.returning w).ieErr = s.ieErr := rfl
@[simp] theorem returning_errpc (s : State) (w : Word) : (s.returning w).errpc = s.errpc := rfl
@[simp] theorem returning_errword (s : State) (w : Word) : (s.returning w).errword = s.errword := rfl
@[simp] theorem returning_retired (s : State) (w : Word) : (s.returning w).retired = s.retired := rfl
@[simp] theorem returning_imem (s : State) (w : Word) : (s.returning w).imem = s.imem := rfl
@[simp] theorem returning_dmem (s : State) (w : Word) : (s.returning w).dmem = s.dmem := rfl
@[simp] theorem returning_draws (s : State) (w : Word) : (s.returning w).draws = s.draws := rfl
@[simp] theorem returning_powerOn (s : State) (w : Word) : (s.returning w).powerOn = s.powerOn := rfl
@[simp] theorem returning_readData (s : State) (w : Word) : (s.returning w).readData = w := rfl
@[simp] theorem returning_agenda (s : State) (w : Word) : (s.returning w).agenda = s.agenda := rfl

@[simp] theorem retire_f (s : State) : s.retire.f = s.f := by
  unfold State.retire; split <;> rfl
@[simp] theorem retire_sc (s : State) : s.retire.sc = s.sc := by
  unfold State.retire; split <;> rfl
@[simp] theorem retire_g (s : State) : s.retire.g = s.g := by
  unfold State.retire; split <;> rfl
@[simp] theorem retire_b (s : State) : s.retire.b = s.b := by
  unfold State.retire; split <;> rfl
theorem retire_pc (s : State) : s.retire.pc = if s.pc = 255 then s.pc else s.pc + 1 := by
  unfold State.retire; split <;> rfl
theorem retire_busy (s : State) : s.retire.busy = if s.pc = 255 then false else s.busy := by
  unfold State.retire; split <;> rfl
@[simp] theorem retire_done (s : State) : s.retire.done = s.done := by
  unfold State.retire; split <;> rfl
theorem retire_err (s : State) : s.retire.err = if s.pc = 255 then true else s.err := by
  unfold State.retire; split <;> rfl
@[simp] theorem retire_herr (s : State) : s.retire.herr = s.herr := by
  unfold State.retire; split <;> rfl
theorem retire_errcode (s : State) : s.retire.errcode = if s.pc = 255 then errorCode .pcovf else s.errcode := by
  unfold State.retire; split <;> rfl
@[simp] theorem retire_ieDone (s : State) : s.retire.ieDone = s.ieDone := by
  unfold State.retire; split <;> rfl
@[simp] theorem retire_ieErr (s : State) : s.retire.ieErr = s.ieErr := by
  unfold State.retire; split <;> rfl
theorem retire_errpc (s : State) : s.retire.errpc = if s.pc = 255 then s.pc else s.errpc := by
  unfold State.retire; split <;> rfl
theorem retire_errword (s : State) : s.retire.errword = if s.pc = 255 then s.imemWord s.pc.toNat else s.errword := by
  unfold State.retire; split <;> rfl
@[simp] theorem retire_retired (s : State) : s.retire.retired = s.retired + 1 := by
  unfold State.retire; split <;> rfl
@[simp] theorem retire_imem (s : State) : s.retire.imem = s.imem := by
  unfold State.retire; split <;> rfl
@[simp] theorem retire_dmem (s : State) : s.retire.dmem = s.dmem := by
  unfold State.retire; split <;> rfl
@[simp] theorem retire_draws (s : State) : s.retire.draws = s.draws := by
  unfold State.retire; split <;> rfl
@[simp] theorem retire_powerOn (s : State) : s.retire.powerOn = s.powerOn := by
  unfold State.retire; split <;> rfl
@[simp] theorem retire_readData (s : State) : s.retire.readData = s.readData := by
  unfold State.retire; split <;> rfl
@[simp] theorem retire_agenda (s : State) : s.retire.agenda = s.agenda := by
  unfold State.retire; split <;> rfl

@[simp] theorem setF_dmemByte (s : State) (i : FReg) (v : Fe) (a : Nat) : (s.setF i v).dmemByte a = s.dmemByte a := rfl
@[simp] theorem setS_dmemByte (s : State) (i : SReg) (v : Scalar) (a : Nat) : (s.setS i v).dmemByte a = s.dmemByte a := rfl
@[simp] theorem setG_dmemByte (s : State) (i : GReg) (v : PointReg) (a : Nat) : (s.setG i v).dmemByte a = s.dmemByte a := rfl
@[simp] theorem setB_dmemByte (s : State) (i : BReg) (v : Bool) (a : Nat) : (s.setB i v).dmemByte a = s.dmemByte a := rfl
@[simp] theorem useDraws_dmemByte (s : State) (k a : Nat) : (s.useDraws k).dmemByte a = s.dmemByte a := rfl
@[simp] theorem retire_dmemByte (s : State) (a : Nat) : s.retire.dmemByte a = s.dmemByte a := by
  simp [State.dmemByte]
@[simp] theorem errorStop_dmemByte (s : State) (e : EngineError) (a : Nat) : (s.errorStop e).dmemByte a = s.dmemByte a := rfl
@[simp] theorem retireHalt_dmemByte (s : State) (a : Nat) : s.retireHalt.dmemByte a = s.dmemByte a := rfl
@[simp] theorem setF_imemWord (s : State) (i : FReg) (v : Fe) (k : Nat) : (s.setF i v).imemWord k = s.imemWord k := rfl
@[simp] theorem setS_imemWord (s : State) (i : SReg) (v : Scalar) (k : Nat) : (s.setS i v).imemWord k = s.imemWord k := rfl
@[simp] theorem setG_imemWord (s : State) (i : GReg) (v : PointReg) (k : Nat) : (s.setG i v).imemWord k = s.imemWord k := rfl
@[simp] theorem setB_imemWord (s : State) (i : BReg) (v : Bool) (k : Nat) : (s.setB i v).imemWord k = s.imemWord k := rfl
@[simp] theorem useDraws_imemWord (s : State) (n k : Nat) : (s.useDraws n).imemWord k = s.imemWord k := rfl
@[simp] theorem dmemWrite_imemWord (s : State) (slot : BitVec 8) (bs : List Byte) (k : Nat) :
    (s.dmemWrite slot bs).imemWord k = s.imemWord k := rfl
@[simp] theorem retire_imemWord (s : State) (k : Nat) : s.retire.imemWord k = s.imemWord k := by
  simp [State.imemWord]
@[simp] theorem errorStop_imemWord (s : State) (e : EngineError) (k : Nat) : (s.errorStop e).imemWord k = s.imemWord k := rfl
@[simp] theorem retireHalt_imemWord (s : State) (k : Nat) : s.retireHalt.imemWord k = s.imemWord k := rfl

/-- The register file after a write, as a whole: the written register holds the value, every other keeps its own. -/
theorem wrote_set {α : Type} (v : Vector α 16) (i : Fin 16) (x : α) :
    (v.set i x)[i] = x ∧ ∀ j : Fin 16, j ≠ i → (v.set i x)[j] = v[j] := by
  refine ⟨by simp, fun j hj => ?_⟩
  have h : (i : Nat) ≠ (j : Nat) := fun h => hj (Fin.ext h.symm)
  simp [h]

end Sys2Proof.Machine
end

