-- ==== Sys2Proof/Laws/Memory.lean ====
section
/-! SUPPORT. Memories: a read after a write, and that every write keeps the canonical form. -/

-- One theorem after another: many at once exceed the memory that check.sh allows for threads.
set_option Elab.async false

namespace Sys2Proof.Machine

variable {w : Nat}

/-- A read after a write to the same address gives the value written; a read elsewhere is as before. -/
theorem Memory.read_write (m : Memory w) (a b : Nat) (v : BitVec w) :
    Memory.read (Memory.write m a v) b = if a = b then some v else Memory.read m b := by
  induction m with
  | nil => by_cases h : a = b <;> simp [Memory.write, Memory.read, h]
  | cons c m ih =>
    unfold Memory.write
    split
    · by_cases h : a = b <;> simp [Memory.read, h]
    · split
      · rename_i h1 h2
        by_cases h : a = b
        · simp [Memory.read, h]
        · have : c.1 ≠ b := by omega
          simp [Memory.read, h, this]
      · rename_i h1 h2
        by_cases h : a = b
        · subst h
          simp [Memory.read, ih, h2]
        · by_cases hc : c.1 = b
          · simp [Memory.read, hc, h]
          · simp [Memory.read, ih, h, hc]

/-- A read after a run of writes: the unit written to that address, or the value from before. -/
theorem Memory.read_writeRun (m : Memory w) (a b : Nat) (vs : List (BitVec w)) :
    Memory.read (Memory.writeRun m a vs) b =
      if h : a ≤ b ∧ b < a + vs.length then some (vs[b - a]'(by omega)) else Memory.read m b := by
  induction vs generalizing m a with
  | nil => simp [Memory.writeRun, show ¬(a ≤ b ∧ b < a) by omega]
  | cons v vs ih =>
    rw [Memory.writeRun, ih]
    by_cases h : a + 1 ≤ b ∧ b < a + 1 + vs.length
    · have h' : a ≤ b ∧ b < a + (v :: vs).length := by simp; omega
      rw [dif_pos h, dif_pos h']
      have : b - a = (b - (a + 1)) + 1 := by omega
      simp [this]
    · rw [dif_neg h, Memory.read_write]
      by_cases hab : a = b
      · subst hab
        simp
      · have : ¬(a ≤ b ∧ b < a + (v :: vs).length) := by simp; omega
        rw [dif_neg this, if_neg hab]

/-- An address listed after a write was listed before, or is the written one. -/
theorem Memory.mem_write {m : Memory w} {a : Nat} {v : BitVec w} {c : Nat × BitVec w}
    (h : c ∈ Memory.write m a v) : c = (a, v) ∨ c ∈ m := by
  induction m with
  | nil => simpa [Memory.write] using h
  | cons d m ih =>
    unfold Memory.write at h
    split at h
    · simpa using h
    · split at h
      · rcases List.mem_cons.1 h with h | h
        · exact .inl h
        · exact .inr (List.mem_cons_of_mem _ h)
      · rcases List.mem_cons.1 h with h | h
        · exact .inr (by simp [h])
        · rcases ih h with h | h
          · exact .inl h
          · exact .inr (List.mem_cons_of_mem _ h)

/-- A write keeps the canonical form. -/
theorem Memory.write_wf {bound : Nat} {m : Memory w} {a : Nat} {v : BitVec w} (hm : Memory.wf bound m) (ha : a < bound) :
    Memory.wf bound (Memory.write m a v) := by
  refine ⟨?_, fun c hc => ?_⟩
  · obtain ⟨hp, -⟩ := hm
    induction m with
    | nil => simp [Memory.write]
    | cons d m ih =>
      rw [List.pairwise_cons] at hp
      unfold Memory.write
      split
      · rename_i h
        refine List.pairwise_cons.2 ⟨fun e he => ?_, List.pairwise_cons.2 hp⟩
        rcases List.mem_cons.1 he with rfl | he
        · exact h
        · exact lt_trans h (hp.1 e he)
      · split
        · rename_i h1 h2
          exact List.pairwise_cons.2 ⟨fun e he => h2 ▸ hp.1 e he, hp.2⟩
        · rename_i h1 h2
          refine List.pairwise_cons.2 ⟨fun e he => ?_, ih hp.2⟩
          rcases Memory.mem_write he with rfl | he
          · show d.1 < a
            omega
          · exact hp.1 e he
  · rcases Memory.mem_write hc with rfl | hc
    · exact ha
    · exact hm.2 c hc

/-- A run of writes within the bound keeps the canonical form. -/
theorem Memory.writeRun_wf {bound : Nat} {m : Memory w} {a : Nat} {vs : List (BitVec w)} (hm : Memory.wf bound m)
    (ha : a + vs.length ≤ bound) : Memory.wf bound (Memory.writeRun m a vs) := by
  induction vs generalizing m a with
  | nil => exact hm
  | cons v vs ih =>
    simp only [List.length_cons] at ha
    exact ih (Memory.write_wf hm (by omega)) (by omega)

@[simp] theorem length_leBytes (v n : Nat) : (leBytes v n).length = n := by
  induction n generalizing v with
  | zero => rfl
  | succ n ih => simp [leBytes, ih]

/-- The k-th byte of `le_bytes`. -/
theorem getElem_leBytes (v n k : Nat) (h : k < (leBytes v n).length) :
    ((leBytes v n)[k]).toNat = v / 256 ^ k % 256 := by
  induction n generalizing v k with
  | zero => simp at h
  | succ n ih =>
    cases k with
    | zero => simp [leBytes]
    | succ k =>
      simp only [leBytes, List.getElem_cons_succ]
      rw [ih, Nat.div_div_eq_div_mul, Nat.pow_succ']

/-- `le_int` undoes `le_bytes` on the integers that fit. -/
theorem leInt_leBytes (v n : Nat) (h : v < 256 ^ n) : leInt (leBytes v n) = v := by
  induction n generalizing v with
  | zero => simp [leBytes, leInt] at *; omega
  | succ n ih =>
    have : v / 256 < 256 ^ n := Nat.div_lt_of_lt_mul (by rw [Nat.pow_succ'] at h; exact h)
    simp only [leBytes, leInt, ih _ this, BitVec.toNat_ofNat]
    omega

@[simp] theorem length_dmemBytes (s : State) (a n : Nat) : (s.dmemBytes a n).length = n := by
  induction n generalizing a with
  | zero => rfl
  | succ n ih => simp [State.dmemBytes, ih]

/-- DMEM after a store of 32 bytes to a slot: the slot holds them, every other byte is as before. -/
theorem dmemByte_dmemWrite (s : State) (slot : BitVec 8) (bs : List Byte) (a : Nat) :
    (s.dmemWrite slot bs).dmemByte a =
      if h : slotBase slot ≤ a ∧ a < slotBase slot + bs.length then bs[a - slotBase slot]'(by omega)
      else s.dmemByte a := by
  unfold State.dmemByte
  rw [dmemWrite_dmem, Memory.read_writeRun]
  split <;> simp_all

/-- Two states with the same DMEM bytes read the same byte strings. -/
theorem dmemBytes_congr {s t : State} {a n : Nat} (h : ∀ j, j < n → t.dmemByte (a + j) = s.dmemByte (a + j)) :
    t.dmemBytes a n = s.dmemBytes a n := by
  induction n generalizing a with
  | zero => rfl
  | succ n ih =>
    have h0 := h 0 (by omega)
    simp only [Nat.add_zero] at h0
    simp only [State.dmemBytes, h0]
    congr 1
    refine ih fun j hj => ?_
    have := h (j + 1) (by omega)
    rwa [show a + 1 + j = a + (j + 1) by omega]

end Sys2Proof.Machine
end

