-- ==== Sys2Proof/Laws/Ops.lean ====
section
/-! SUPPORT. One lemma per shared operation that says all it can do: the checks of a command, its completion, and
retirement. -/

-- One theorem after another: many at once exceed the memory that check.sh allows for threads.
set_option Elab.async false

namespace Sys2Proof.Machine

/-- What a checked range can do: raise RANGE, or go on. -/
theorem checkRange_cases (ok : Bool) (s : State) (go : Result) :
    (ok = false ∧ checkRange ok s go = .next (s.errorStop .range)) ∨ (ok = true ∧ checkRange ok s go = go) := by
  cases ok <;> simp [checkRange, raise]

/-- What a command with sources can do: raise UNINIT, raise POISON, or have its effect and retire. -/
theorem withSources_cases {α : Type} (src : Src α) (s : State) (effect : α → State) :
    (src = .unwritten ∧ withSources src s effect = .next (s.errorStop .uninit)) ∨
      (src = .poison ∧ withSources src s effect = .next (s.errorStop .poison)) ∨
      ∃ a, src = .value a ∧ withSources src s effect = .next (effect a).retire := by
  cases src <;> simp [withSources, raise, complete]

@[simp] theorem withSources_value {α : Type} (a : α) (s : State) (effect : α → State) :
    withSources (.value a) s effect = .next (effect a).retire := rfl

@[simp] theorem withSources_unwritten {α : Type} (s : State) (effect : α → State) :
    withSources .unwritten s effect = .next (s.errorStop .uninit) := rfl

@[simp] theorem withSources_poison {α : Type} (s : State) (effect : α → State) :
    withSources .poison s effect = .next (s.errorStop .poison) := rfl

@[simp] theorem checkRange_true (s : State) (go : Result) : checkRange true s go = go := rfl

@[simp] theorem checkRange_false (s : State) (go : Result) : checkRange false s go = .next (s.errorStop .range) := rfl

/-- Two reads together give values exactly when both do. -/
theorem both_eq_value {α β : Type} {x : Src α} {y : Src β} {p : α × β} :
    x.both y = .value p ↔ x = .value p.1 ∧ y = .value p.2 := by
  obtain ⟨a, b⟩ := p
  cases x <;> cases y <;> simp [Src.both]

/-- Two reads together raise UNINIT exactly when one of them does. -/
theorem both_eq_unwritten {α β : Type} {x : Src α} {y : Src β} :
    x.both y = .unwritten ↔ x = .unwritten ∨ y = .unwritten := by
  cases x <;> cases y <;> simp [Src.both]

/-- Two reads together raise POISON exactly when one does and neither raises UNINIT. -/
theorem both_eq_poison {α β : Type} {x : Src α} {y : Src β} :
    x.both y = .poison ↔ x ≠ .unwritten ∧ y ≠ .unwritten ∧ (x = .poison ∨ y = .poison) := by
  cases x <;> cases y <;> simp [Src.both]

@[simp] theorem both_value {α β : Type} (a : α) (b : β) : (Src.value a).both (Src.value b) = .value (a, b) := rfl

theorem readF_of_some {s : State} {i : FReg} {a : Fe} (h : s.f[i] = some a) : s.readF i = .value a := by
  simp [State.readF, h, Src.ofOption]

theorem readS_of_some {s : State} {i : SReg} {a : Scalar} (h : s.sc[i] = some a) : s.readS i = .value a := by
  simp [State.readS, h, Src.ofOption]

theorem readG_of_point {s : State} {i : GReg} {P : Pt} (h : s.g[i] = .point P) : s.readG i = .value P := by
  simp [State.readG, h, Src.ofPoint]

/-- What retirement changes, below PC 255. -/
theorem retire_of_ne {s : State} (h : s.pc ≠ 255) : s.retire = { s with retired := s.retired + 1, pc := s.pc + 1 } := by
  unfold State.retire
  rw [if_neg h]

/-- What retirement changes at PC 255: RETIRED, and the error stop PCOVF. -/
theorem retire_of_eq {s : State} (h : s.pc = 255) :
    s.retire = { s with retired := s.retired + 1, errcode := 0x05, errpc := 255, errword := s.imemWord 255, err := true,
                        busy := false } := by
  unfold State.retire State.errorStop
  rw [if_pos h]
  simp [errorCode, State.imemWord, h]

end Sys2Proof.Machine
end

