-- ==== Sys2Proof/Laws/Host.lean ====
section
/-! SUPPORT. One lemma per operation of the host's side that says all it can do: the window, host reads and writes, the
cut-short of a soft reset, and the bits of a word made from a list. -/

-- One theorem after another: many at once exceed the memory that check.sh allows for threads.
set_option Elab.async false

namespace Sys2Proof.Machine

/-- Offset `off` of the window is reached at MMIO_BASE + off. -/
theorem windowOffset_base {off : Nat} (h : off < 4096) : windowOffset (Config.mmioBase + off) = some off := by
  simp [windowOffset, h]

/-- An address outside the window reaches no offset. -/
theorem windowOffset_outside {addr : Nat} (h : addr < Config.mmioBase ∨ Config.mmioBase + 4096 ≤ addr) :
    windowOffset addr = none := by
  have : ¬(Config.mmioBase ≤ addr ∧ addr < Config.mmioBase + Config.mmioSize) := by
    rintro ⟨h1, h2⟩
    simp only [Config.mmioSize] at h2
    omega
  rw [windowOffset, if_neg this]

/-- An offset the window answers at is below its size. -/
theorem windowOffset_lt {addr off : Nat} (h : windowOffset addr = some off) : off < 4096 := by
  unfold windowOffset at h
  split at h
  · rename_i h'
    simp only [Config.mmioSize] at h'
    cases h
    omega
  · cases h

@[simp] theorem length_drawBytes (n k : Nat) : (drawBytes n k).length = k := by
  induction k generalizing n with
  | zero => rfl
  | succ k ih => simp [drawBytes, ih]

/-- The j-th of `k` draws from draw number `n` on is draw number n + j. -/
theorem getElem_drawBytes (n k j : Nat) (h : j < (drawBytes n k).length) : (drawBytes n k)[j] = Config.draw 8 (n + j) := by
  induction k generalizing n j with
  | zero => simp [drawBytes] at h
  | succ k ih =>
    cases j with
    | zero => rfl
    | succ j =>
      simp only [drawBytes, List.getElem_cons_succ]
      rw [ih, show n + 1 + j = n + (j + 1) by omega]

/-- What a soft reset that cuts a run short does to DMEM: nothing, or draws in the slot of the pack command at the PC. -/
theorem cutShort_cases (s : State) :
    s.cutShort = s ∨
      ∃ i slot, decode s.fetch = .ok i ∧ packSlot i = some slot ∧ slot.toNat < 64 ∧
        s.cutShort = (s.dmemWrite slot (drawBytes s.draws 32)).useDraws 32 := by
  unfold State.cutShort
  split
  · exact .inl rfl
  · rename_i slot h
    split
    · rename_i hr
      refine .inr ?_
      cases hd : decode s.fetch with
      | error e => rw [hd] at h; cases h
      | ok i =>
        rw [hd] at h
        exact ⟨i, slot, rfl, h, by simpa [slotInRange, Config.dmemSlots] using hr, rfl⟩
    · exact .inl rfl

/-- A reset of the registers leaves the memories and the model's own fields. -/
theorem resetRegisters_eq (s : State) :
    s.resetRegisters = { State.reset with imem := s.imem, dmem := s.dmem, draws := s.draws, powerOn := s.powerOn,
                                          readData := s.readData, agenda := s.agenda } := rfl

/-- A host access that is an aligned word. -/
theorem aligned_four {off : Nat} (h : off % 4 = 0) : aligned off 4 = true := by
  simp [aligned, h]

/-- The integer of a list of bits fits in as many bits. -/
theorem bitsToNat_lt (l : List Bool) : bitsToNat l < 2 ^ l.length := by
  induction l with
  | nil => simp [bitsToNat]
  | cons b l ih =>
    have := b.toNat_lt
    simp only [bitsToNat, List.length_cons, Nat.pow_succ]
    omega

/-- Bit `i` of the integer of a list of bits is its i-th entry. -/
theorem testBit_bitsToNat (l : List Bool) (i : Nat) : (bitsToNat l).testBit i = l.getD i false := by
  induction l generalizing i with
  | nil => simp [bitsToNat]
  | cons b l ih =>
    have := b.toNat_lt
    cases i with
    | zero => cases b <;> simp [bitsToNat, Nat.testBit_zero]
    | succ i =>
      have h : bitsToNat (b :: l) / 2 = bitsToNat l := by
        simp only [bitsToNat]
        omega
      rw [Nat.testBit_succ, h, ih]
      simp

end Sys2Proof.Machine
end

