-- ==== Sys2Proof/Tests/Slice0.lean ====
section
/-! SUPPORT. Tests: the checks of WellFormed, decoding of words written out from the spec, single steps against the spec's
examples, and for every obligation with hypotheses a concrete state and operands that meet them. -/

-- One theorem after another: many at once exceed the memory that check.sh allows for threads.
set_option Elab.async false

open Sys2Proof Sys2Proof.Machine Sys2Proof.Safety

namespace Sys2Proof.Tests

/-! ### WellFormed -/

/-- Slot 63 is the last slot and 64 is refused (30_encoding.md R146). -/
theorem test_wellFormed_slot :
    wellFormed (.funpack false 0 63) = true ∧ wellFormed (.funpack false 0 64) = false ∧
      wellFormed (.fpack false 0 64) = false ∧ wellFormed (.sunpack false 0 64) = false ∧
      wellFormed (.spack false 0 255) = false ∧ wellFormed (.gunpack false 0 0 64) = false ∧
      wellFormed (.gpack false 0 64) = false := by
  decide

/-- Slot 62 starts the last slot pair and 63 is refused (30_encoding.md R146). -/
theorem test_wellFormed_slotPair :
    wellFormed (.sunpack64 false 0 62) = true ∧ wellFormed (.sunpack64 false 0 63) = false := by
  decide

/-- A count of 0, and one that runs past register 15, are refused (30_encoding.md R147). -/
theorem test_wellFormed_count :
    wellFormed (.gmsm false 0 0 0 16) = true ∧ wellFormed (.gmsm false 0 15 15 1) = true ∧
      wellFormed (.gmsm false 0 0 0 0) = false ∧ wellFormed (.gmsm false 0 1 0 16) = false ∧
      wellFormed (.gmsm false 0 0 1 16) = false ∧ wellFormed (.gmsm false 0 0 0 17) = false := by
  decide

/-! ### Encoding -/

/-- The mask that a row's used fields leave: OPC and every unused field, never V (30_encoding.md R151). -/
def maskOf (u : Uses) : Nat :=
  0xFE000000 + (if u.rd then 0 else 0xF00000) + (if u.ra then 0 else 0xF0000) + (if u.rb then 0 else 0xF000) +
    (if u.rc then 0 else 0xF00) + (if u.imm then 0 else 0xFF)

/-- The table's masks and matches agree with the fields its rows use and with their opcodes (30_encoding.md R151). -/
theorem test_rows_masks :
    ∀ r ∈ rows, r.mask.toNat = maskOf r.uses ∧ r.matchBits.toNat = r.opc.toNat * 2 ^ 25 := by
  decide +kernel

/-- No two rows share an opcode (30_encoding.md R148). -/
theorem test_rows_opcodes_differ : rows.Pairwise (fun r r' => r.opc ≠ r'.opc) := by
  decide +kernel

/-- Every control command's word, as its rule's example writes it out, decodes to the command of that example
(40_control.md). -/
theorem test_decode_control_examples :
    decode 0x00000000 = .ok (.nop false) ∧
    decode 0x02000000 = .ok (.halt false) := by
  decide +kernel

/-- Every field command's word, as its rule's example writes it out, decodes to the command of that example
(41_field.md). -/
theorem test_decode_field_examples :
    decode 0x20100003 = .ok (.funpack false 1 3) ∧
    decode 0x22010005 = .ok (.fpack false 1 5) ∧
    decode 0x24123000 = .ok (.fadd false 1 2 3) ∧
    decode 0x26123000 = .ok (.fsub false 1 2 3) ∧
    decode 0x28120000 = .ok (.fneg false 1 2) ∧
    decode 0x2A120000 = .ok (.fdbl false 1 2) ∧
    decode 0x2C120000 = .ok (.ftrpl false 1 2) ∧
    decode 0x2E123000 = .ok (.fmul false 1 2 3) ∧
    decode 0x30120000 = .ok (.fsqr false 1 2) ∧
    decode 0x32120000 = .ok (.fsqr2 false 1 2) ∧
    decode 0x34120000 = .ok (.finv false 1 2) ∧
    decode 0x36120000 = .ok (.fpow2523 false 1 2) ∧
    decode 0x38120000 = .ok (.finvsqrt false 1 2) ∧
    decode 0x3A120000 = .ok (.fsqrt false 1 2) ∧
    decode 0x3C120300 = .ok (.finvsqrti false 1 2 3) ∧
    decode 0x3E120300 = .ok (.fsqrti false 1 2 3) ∧
    decode 0x40120000 = .ok (.fiszero false 1 2) ∧
    decode 0x42120000 = .ok (.fisone false 1 2) ∧
    decode 0x44120000 = .ok (.fisneg false 1 2) ∧
    decode 0x46123000 = .ok (.fiseq false 1 2 3) ∧
    decode 0x48120400 = .ok (.fcmov false 1 2 4) ∧
    decode 0x4A120000 = .ok (.fabs false 1 2) := by
  decide +kernel

/-- Every scalar command's word, as its rule's example writes it out, decodes to the command of that example
(42_scalar.md). -/
theorem test_decode_scalar_examples :
    decode 0x60100004 = .ok (.sunpack false 1 4) ∧
    decode 0x62000002 = .ok (.sunpack64 false 0 2) ∧
    decode 0x64010006 = .ok (.spack false 1 6) ∧
    decode 0x66123000 = .ok (.sadd false 1 2 3) ∧
    decode 0x68123000 = .ok (.ssub false 1 2 3) ∧
    decode 0x6A120000 = .ok (.sneg false 1 2) ∧
    decode 0x6C123000 = .ok (.smul false 1 2 3) ∧
    decode 0x6E120000 = .ok (.ssqr false 1 2) ∧
    decode 0x70120000 = .ok (.sinv false 1 2) ∧
    decode 0x72120000 = .ok (.siszero false 1 2) ∧
    decode 0x74120000 = .ok (.sisone false 1 2) ∧
    decode 0x76123000 = .ok (.seq false 1 2 3) ∧
    decode 0x78120400 = .ok (.scmov false 1 2 4) := by
  decide +kernel

/-- Every group command's word, as its rule's example writes it out, decodes to the command of that example
(43_group.md). -/
theorem test_decode_group_examples :
    decode 0x80200709 = .ok (.gunpack false 2 7 9) ∧
    decode 0x82010000 = .ok (.gpack false 1 0) ∧
    decode 0x84312000 = .ok (.gadd false 3 1 2) ∧
    decode 0x86210000 = .ok (.gdbl false 2 1) ∧
    decode 0x88210000 = .ok (.gneg false 2 1) ∧
    decode 0x8A312000 = .ok (.gsmul false 3 1 2) ∧
    decode 0x8C102000 = .ok (.gsmulb false 1 2) ∧
    decode 0x8E048003 = .ok (.gmsm false 0 4 8 3) ∧
    decode 0x90112000 = .ok (.geq false 1 1 2) ∧
    decode 0x92210000 = .ok (.gisneutral false 2 1) ∧
    decode 0x94500000 = .ok (.gneutral false 5) ∧
    decode 0x96100000 = .ok (.gbase false 1) ∧
    decode 0x98110000 = .ok (.gelligator false 1 1) ∧
    decode 0x9A120300 = .ok (.gcmov false 1 2 3) := by
  decide +kernel

/-- Bit V is read and is bit 24, and every field is read from its own bits (30_encoding.md R140). -/
theorem test_decode_fields :
    decode 0x01000000 = .ok (.nop true) ∧ decode 0x2FF78000 = .ok (.fmul true 15 7 8) ∧
      decode 0x8FEDC0AB = .ok (.gmsm true 14 13 12 0xAB) ∧ decode 0x81500F3F = .ok (.gunpack true 5 15 0x3F) := by
  decide +kernel

/-- Reserved words are rejected by name: an unassigned opcode, and a nonzero field the row does not use
(30_encoding.md R148). -/
theorem test_decode_rejects :
    decode 0x04000000 = .error (.unassignedOpcode 0x02) ∧ decode 0xFE000000 = .error (.unassignedOpcode 0x7F) ∧
      decode 0x02000001 = .error (.nonzeroUnusedField "HALT") ∧
      decode 0x24123001 = .error (.nonzeroUnusedField "FADD") := by
  decide +kernel

/-- The host's two questions, on the table's word of HALT. -/
theorem test_decodeTableWord : decodeTableWord 32 0x02000000 = some (.halt false) := by
  decide +kernel

/-! ### Single steps -/

/-- The next state, where there is one. -/
def next? : Result → Option State
  | .next t => some t
  | .fault _ => none
  | .refused _ => none

/-- What a step answers about its next state. -/
def after {α : Type} (r : Result) (look : State → α) : Option α := (next? r).map look

/-- A running state in which every register holds a value and DMEM slot 0 holds 2^255 - 18, so 1 modulo p. -/
def ready : State :=
  { State.reset with
    f := (Vector.replicate 16 (some 5)).set 2 (some 2)
    sc := (Vector.replicate 16 (some 7)).set 2 (some 2)
    g := Vector.replicate 16 (.point basePoint)
    busy := true
    dmem := (List.range 32).map fun j => (j, if j = 0 then 0xEE else if j = 31 then 0x7F else 0xFF)
    imem := [(0, 0x24123000), (255, 0)] }

/-- NOP advances the PC; HALT at 255 wraps it and sets DONE (40_control.md R175, R176). -/
theorem test_control :
    after (exec (.nop false) { ready with pc := 4 }) (fun t => (t.pc, t.busy, t.retired)) = some (5, true, 1) ∧
      after (exec (.halt false) { ready with pc := 255 }) (fun t => (t.pc, t.busy, t.done)) = some (0, false, true) := by
  decide +kernel

/-- FUNPACK reduces 2^255 - 18 to 1, and FSUB wraps below 0 (41_field.md R200, R203). -/
theorem test_field_wraps :
    after (exec (.funpack false 1 0) ready) (fun t => t.f[1]) = some (some 1) ∧
      after (exec (.fsub false 1 2 3) ready) (fun t => t.f[1]) = some (some (Fin.ofNat _ (fieldPrime - 3))) := by
  decide +kernel

/-- FINV(2) = (p+1)/2; FSQRTI(4) gives p - 2 and flag 1 (41_field.md R210, R215). -/
theorem test_field_roots :
    after (exec (.finv false 1 2) ready) (fun t => t.f[1]) = some (some (Fin.ofNat _ ((fieldPrime + 1) / 2))) ∧
      after (exec (.fsqrti false 1 2 3) { ready with f := Vector.replicate 16 (some 4) })
        (fun t => (t.f[1], t.b[3])) = some (some (Fin.ofNat _ (fieldPrime - 2)), true) := by
  decide +kernel

/-- SSUB wraps below 0, and SUNPACK masks bits 253 to 255 (42_scalar.md R276, R272). -/
theorem test_scalar :
    after (exec (.ssub false 1 2 3) ready) (fun t => t.sc[1]) = some (some (Fin.ofNat _ (groupOrder - 5))) ∧
      after (exec (.sunpack false 1 0) { ready with dmem := (List.range 32).map fun j => (j, if j = 31 then 0xE0 else 0) })
        (fun t => t.sc[1]) = some (some 0) := by
  decide +kernel

/-- The Ristretto encoding of the base point is e2f2..2d76, of the neutral element 0 (43_group.md R312, R333). -/
theorem test_group_pack :
    after (exec (.gpack false 1 0) ready) (fun t => (t.dmemByte 0, t.dmemByte 1, t.dmemByte 31)) =
      some (0xE2, 0xF2, 0x76) := by
  decide +kernel

/-- s = 0 decodes to the neutral element; s = 2 does not decode (43_group.md R332). -/
theorem test_group_decode : ristrettoDecode (leBytes 0 32) = some neutral ∧ ristrettoDecode (leBytes 2 32) = none := by
  decide +kernel

/-- GELLIGATOR of 1, 2 and SQRT_M1 gives the encodings of GV28, GV30 and GV31, as little-endian integers, and the affine
point of GV28 (95_test_vectors.md). -/
theorem test_elligator :
    leInt (ristrettoEncode (elligator 1)) = 0x6085600231a13b4942f1362e1e9e4a102f0fb5c864b1ec59c3c4ea38e9611f7c ∧
      leInt (ristrettoEncode (elligator 2)) = 0x73e6fdb4eb752191c4cd40484a136f76e5069466f007fa743c0816faec3c605a ∧
      leInt (ristrettoEncode (elligator sqrtM1)) = 0x6e54529641b8b23167f467d7799df5614c3365afd49e091bc6ce7eadea66b536 ∧
      (elligator 1).x.val = 0x25aba9dc7ef29be6b1181c3b1846a6aa6c2850e9ee6a34d5774df20dc6012795 ∧
      (elligator 1).y.val = 0x21ac0e55a2e808f1375c9a1e558647b865697efc437097d72ba58e748670f0a9 := by
  decide +kernel

/-- GADD of an Unwritten and a Poison source reports UNINIT, and changes no register (60_exceptions.md R376). -/
theorem test_error_priority :
    after (exec (.gadd false 3 1 2) { ready with g := (Vector.replicate 16 .poison).set 2 .unwritten })
      (fun t => (t.errcode, t.err, t.busy, t.retired)) = some (0x03, true, false, 0) := by
  decide +kernel

/-- A word placed by `withFetchWord` is the next to run. -/
theorem test_withFetchWord :
    after (step (State.reset.withFetchWord 32 0x02000000)) (fun t => (t.pc, t.done, t.retired)) = some (1, true, 1) := by
  decide +kernel

/-- START begins a run; a write of START while Running sets HERR (60_exceptions.md R375). -/
theorem test_start :
    (State.reset.hostWriteAny 0x004 4 0x1).busy = true ∧ (ready.hostWriteAny 0x004 4 0x1).herr = true := by
  decide +kernel

/-- While Idle, a write to PC keeps its bits 7 to 0; a write of 0xC to CTRL sets both enables and starts nothing
(10_state.md R62, R64). -/
theorem test_register_writes :
    (State.reset.hostWriteAny 0x00C 4 0x1FF).pc = 0xFF ∧ (State.reset.hostWriteAny 0x004 4 0xC).ctrlWord = 0xC ∧
      (State.reset.hostWriteAny 0x004 4 0xC).busy = false := by
  decide +kernel

/-! ### Witnesses: the hypotheses of the obligations can be met -/

/-- HintBitChangesNothing, and the first clauses of the statements on decoding. -/
theorem witness_legal_word : decode 0x24123000 = .ok (.fadd false 1 2 3) := by
  decide +kernel

/-- DecodeSelectsTheRowThatMaskAndMatchSelect: two rows that select a word, and a running state whose word no row
selects. -/
theorem witness_row_selection :
    (∃ r ∈ rows, (0x24123000 : Word) &&& r.mask = r.matchBits) ∧
      let s := { ready with imem := [(0, 0x04000000)] }
      s.busy = true ∧ s.agenda = [] ∧ ∀ r ∈ rows, s.imemWord s.pc.toNat &&& r.mask ≠ r.matchBits := by
  decide +kernel

/-- StepRunsTheDecodedCommand, with each agenda; EveryRunEndsWithinItsBound and ChecksAreMadeInTheFixedOrder. -/
theorem witness_running :
    ready.busy = true ∧ ready.agenda = [] ∧ decode (ready.imemWord ready.pc.toNat) = .ok (.fadd false 1 2 3) ∧
      { ready with agenda := [.engineTurn] }.agenda = .engineTurn :: [] := by
  decide +kernel

/-- IdleEngineExecutesNothing and ChecksAreMadeInTheFixedOrder: the engine moves with an empty agenda and with its turn next,
at an idle state, at a running one, and at a running one whose word is illegal. -/
theorem witness_engine_moves :
    State.reset.busy = false ∧ EngineMoves State.reset State.reset ∧
      EngineMoves { State.reset with agenda := [.engineTurn] } State.reset ∧
      ready.busy = true ∧ EngineMoves ready ready ∧ EngineMoves { ready with agenda := [.engineTurn] } ready ∧
      let s := { ready with imem := [(0, 0x04000000)], agenda := [.engineTurn, .hardReset] }
      EngineMoves s { s with agenda := [.hardReset] } ∧
        decode (s.imemWord s.pc.toNat) = .error (.unassignedOpcode 0x02) :=
  ⟨rfl, .inl ⟨rfl, rfl⟩, .inr ⟨[], rfl, rfl⟩, rfl, .inl ⟨rfl, rfl⟩, .inr ⟨[], rfl, rfl⟩, .inr ⟨[.hardReset], rfl, rfl⟩,
    by decide +kernel⟩

/-- StepPerformsTheNextEvent: a read at the window's first and last byte, a write at its last word, an access just outside,
and a reset. -/
theorem witness_events :
    ({ ready with agenda := [.read (Config.mmioBase + 0) 4] }.agenda = .read (Config.mmioBase + 0) 4 :: [] ∧ 0 < 4096) ∧
      ({ ready with agenda := [.read (Config.mmioBase + 4095) 1] }.agenda = .read (Config.mmioBase + 4095) 1 :: [] ∧
        4095 < 4096) ∧
      ({ ready with agenda := [.write (Config.mmioBase + 4092) 4 1] }.agenda =
        .write (Config.mmioBase + 4092) 4 1 :: [] ∧ 4092 < 4096) ∧
      ({ ready with agenda := [.read (Config.mmioBase + 4096) 4] }.agenda = .read (Config.mmioBase + 4096) 4 :: [] ∧
        Config.mmioBase + 4096 ≤ Config.mmioBase + 4096) ∧
      ({ ready with agenda := [.write (Config.mmioBase + 4096) 4 1] }.agenda =
        .write (Config.mmioBase + 4096) 4 1 :: [] ∧ Config.mmioBase + 4096 ≤ Config.mmioBase + 4096) ∧
      { ready with agenda := [.hardReset] }.agenda = .hardReset :: [] :=
  ⟨⟨rfl, by decide⟩, ⟨rfl, by decide⟩, ⟨rfl, by decide⟩, ⟨rfl, le_rfl⟩, ⟨rfl, le_rfl⟩, rfl⟩

/-- ChecksAreMadeInTheFixedOrder: an illegal word, an immediate out of range, an Unwritten source, a Poison source, and a
command that passes every check. -/
theorem witness_checks :
    (∃ e, decode ({ ready with imem := [(0, 0x04000000)] }.imemWord 0) = .error e) ∧
      (decode ({ ready with imem := [(0, 0x20100040)] }.imemWord 0) = .ok (.funpack false 1 64) ∧
        wellFormed (.funpack false 1 64) = false) ∧
      (wellFormed (.fadd false 1 2 3) = true ∧
        ∃ r ∈ sources (.fadd false 1 2 3), unwritten { ready with f := Vector.replicate 16 none } r = true) ∧
      (wellFormed (.gneg false 1 2) = true ∧
        (∀ r ∈ sources (.gneg false 1 2), unwritten { ready with g := Vector.replicate 16 .poison } r = false) ∧
        ∃ r ∈ sources (.gneg false 1 2), poisoned { ready with g := Vector.replicate 16 .poison } r = true) ∧
      ((∀ r ∈ sources (.gmsm false 0 0 0 16), unwritten ready r = false) ∧
        ∀ r ∈ sources (.gmsm false 0 0 0 16), poisoned ready r = false) := by
  refine ⟨⟨.unassignedOpcode 0x02, ?_⟩, ?_, ?_, ?_, ?_⟩ <;> decide +kernel

/-- PcovfStopsAfterTheFullEffect: a command that retires at 255 and at 0, and the two cases of its second clause. -/
theorem witness_pcovf :
    (isHalt (.fadd false 1 2 3) = false ∧ { ready with pc := 255 }.pc = 255 ∧ (0 : BitVec 8) ≠ 255 ∧
        after (exec (.fadd false 1 2 3) { ready with pc := 255 }) (fun t => t.retired) = some (ready.retired + 1) ∧
        after (exec (.fadd false 1 2 3) { ready with pc := 0 }) (fun t => t.retired) = some (ready.retired + 1)) ∧
      (isHalt (.halt false) = true ∧
        after (exec (.halt false) { ready with pc := 255 }) (fun t => t.retired) = some (ready.retired + 1)) ∧
      ready.pc ≠ 255 ∧ after (exec (.nop false) ready) (fun t => t.retired) = some (ready.retired + 1) := by
  decide +kernel

/-- The base point and the points of order 1, 2 and 4 meet the criterion of 2E: 1 - y^2 is 9/25, 0 or 1. -/
theorem witness_two_e :
    InTwoE basePoint ∧ InTwoE neutral ∧ InTwoE ⟨0, -1⟩ ∧ InTwoE ⟨sqrtM1, 0⟩ := by
  refine ⟨⟨?_, feDiv 3 5, ?_⟩, ⟨?_, 0, ?_⟩, ⟨?_, 0, ?_⟩, ⟨?_, 1, ?_⟩⟩ <;> decide +kernel

/-- The five invariants hold of a running state that has a next state, so that the statements on every step say something. -/
theorem witness_invariants :
    MemoryCanonical ready ∧ StatusCoherent ready ∧ RetiredBounded ready ∧ PointsOnCurve ready ∧
      PointsInTwoE ready ∧ ∃ t, step ready = .next t := by
  have hg : ∀ (i : GReg) (P : Pt), ready.g[i] = .point P → P = basePoint := by
    intro i P h
    have : ready.g[i] = .point basePoint := by simp [ready]
    rw [this] at h
    cases h
    rfl
  refine ⟨⟨?_, ?_⟩, ⟨?_, ?_, ?_, ?_⟩, ⟨?_, ?_⟩, ?_, ?_, ?_⟩
  · unfold Memory.wf; decide +kernel
  · unfold Memory.wf; decide +kernel
  · decide +kernel
  · decide +kernel
  · decide +kernel
  · decide +kernel
  · decide +kernel
  · decide +kernel
  · intro i P h
    rw [hg i P h]
    exact witness_two_e.1.1
  · intro i P h
    rw [hg i P h]
    exact witness_two_e.1
  · exact ⟨_, rfl⟩

/-- NoCommandWritesImem, DmemChangesOnlyInThePackedSlot, RegistersChangeOnlyAsDestinations and
CommandsLeaveTheShellAlone: a pack command that has a next state, and an address outside its slot on either side. -/
theorem witness_frames :
    (∃ t, exec (.fpack false 1 5) ready = .next t) ∧ packSlot (.fpack false 1 5) = some 5 ∧
      (159 < 32 * (5 : BitVec 8).toNat) ∧ 32 * (5 : BitVec 8).toNat + 32 ≤ 192 ∧
      destF (.fpack false 1 5) ≠ some 3 ∧ isHalt (.fpack false 1 5) = false :=
  ⟨⟨_, rfl⟩, rfl, by decide, by decide, by decide, rfl⟩

/-- The statements on field, scalar and group commands and on conditional moves: every source holds a value, in a running
state; slot 63 and slot pair 62 are the last. -/
theorem witness_values :
    (∀ i : Fin 16, ready.f[i] ≠ none) ∧ (∀ i : Fin 16, ready.sc[i] ≠ none) ∧
      (∀ i : Fin 16, ready.g[i] = .point basePoint) ∧ ready.f[(2 : Fin 16)] = some 2 ∧ ready.f[(3 : Fin 16)] = some 5 ∧
      ready.sc[(2 : Fin 16)] = some 2 ∧ ready.sc[(3 : Fin 16)] = some 7 ∧ (63 : BitVec 8).toNat ≤ 63 ∧
      (62 : BitVec 8).toNat ≤ 62 ∧ (0 : BitVec 8).toNat ≤ 62 := by
  decide +kernel

/-- FieldPowerResults, ScalarInverseResult, SquareRootDrawsAreRoots and SquareRootsWithFlag: zero, a nonzero square and a
nonzero value whose flag is 0 can be sources. -/
theorem witness_roots :
    { ready with f := Vector.replicate 16 (some 0) }.f[(1 : Fin 16)] = some 0 ∧
      { ready with f := Vector.replicate 16 (some 4) }.f[(1 : Fin 16)] = some 4 ∧
      (4 : Fe) ≠ 0 ∧ (2 : Fe) * 2 = 4 ∧ (sqrtRatioM1 1 4).1 = true ∧ (2 : Fe) ≠ 0 ∧ (sqrtRatioM1 1 2).1 = false ∧
      { ready with sc := Vector.replicate 16 (some 0) }.sc[(1 : Fin 16)] = some 0 := by
  decide +kernel

/-- 2 is no square: its power (p-1)/2 is not 1, while that of every nonzero square is. -/
theorem two_is_no_square : ¬∃ x : Fe, 1 * (x * x) = (2 : Fe) := by
  rintro ⟨x, hx⟩
  have : Fact (Nat.Prime fieldPrime) := ⟨fieldPrime_prime⟩
  have h0 : inField x ≠ 0 := by
    intro h
    rw [← inField_zero, inField_inj] at h
    subst h
    exact absurd hx (by decide +kernel)
  have h1 : fePow 2 ((fieldPrime - 1) / 2) = 1 := by
    rw [← inField_inj, inField_fePow _ _ (by norm_num), ← hx, inField_one]
    simp only [inField_mul, one_mul]
    rw [← pow_two, ← pow_mul, show 2 * ((fieldPrime - 1) / 2) = fieldPrime - 1 by norm_num]
    exact ZMod.pow_card_sub_one_eq_one h0
  exact absurd h1 (by decide +kernel)

/-- SqrtRatioCases: each of the four cases. -/
theorem witness_sqrt_ratio :
    ((0 : Fe) = 0 ∧ (1 : Fe) ≠ 0) ∧ ((4 : Fe) ≠ 0 ∧ ∃ x : Fe, 1 * (x * x) = (4 : Fe)) ∧
      ((2 : Fe) ≠ 0 ∧ ¬∃ x : Fe, 1 * (x * x) = (2 : Fe)) :=
  ⟨by decide +kernel, ⟨by decide +kernel, 2, by decide +kernel⟩, by decide +kernel, two_is_no_square⟩

/-- MultiScalarMultiplicationSumsItsTerms: all sixteen pairs, and one and two of them. -/
theorem witness_msm :
    (∀ k, k < 16 → ready.g[Fin.ofNat 16 k] = .point basePoint) ∧
      (∀ k, k < 2 → ready.sc[Fin.ofNat 16 (2 + k)] = some (if k = 0 then 2 else 7)) ∧
      (0 + 1 < (2 : BitVec 8).toNat ∧ 14 + 1 < (16 : BitVec 8).toNat) ∧ 1 ≤ (16 : BitVec 8).toNat ∧
      0 + (16 : BitVec 8).toNat ≤ 16 ∧ 1 ≤ (1 : BitVec 8).toNat ∧
      2 + (2 : BitVec 8).toNat ≤ 16 := by
  decide +kernel

/-- `ready` with the integer `v` in DMEM slot 0. -/
def holding (v : Nat) : State :=
  { ready with dmem := (List.range 32).map fun j => (j, BitVec.ofNat 8 (v / 256 ^ j)) }

/-- Of the equations of GroupUnpackDecodesOrPoisons at `e`: the flag of the root, the unsigned x, and y. -/
def decoding (e : Fe) : Bool × Fe × Fe :=
  let u1 := 1 - e * e
  let u2 := 1 + e * e
  let w := -(curveD * (u1 * u1)) - u2 * u2
  let root := sqrtRatioM1 1 (w * (u2 * u2))
  let denX := root.2 * u2
  (root.1, 2 * e * denX, u1 * (root.2 * denX * w))

/-- GroupUnpackDecodesOrPoisons: a slot of zero bytes; a slot that holds 4, which passes the three tests of the decoding; and
8 and 2, of which the first fails its first test and the second its second (43_group.md R332). -/
theorem witness_unpack_equations :
    (∀ j, j < 32 → (holding 0).dmemByte (32 * (0 : BitVec 8).toNat + j) = 0) ∧
      leInt ((holding 4).dmemRead 0 1) = 4 ∧ leInt ((holding 8).dmemRead 0 1) = 8 ∧ (decoding 8).1 = false ∧
      (decoding 2).1 = true ∧ (feAbs (decoding 2).2.1 * (decoding 2).2.2).val % 2 = 1 ∧ (decoding 4).1 = true ∧ (feAbs (decoding 4).2.1).val % 2 = 0 ∧
      (feAbs (decoding 4).2.1 * (decoding 4).2.2).val % 2 = 0 ∧ (decoding 4).2.2 ≠ 0 := by
  decide +kernel

/-- GroupUnpackDecodesOrPoisons: a slot whose integer is p or more, and one whose integer is odd. -/
theorem witness_unpack :
    fieldPrime ≤ leInt (ready.dmemRead 0 1) ∧
      leInt ((holding 1).dmemRead 0 1) % 2 = 1 := by
  decide +kernel

/-- The statements on points of the curve, and on powers below the bound. -/
theorem witness_curve : onCurve basePoint = true ∧ onCurve neutral = true ∧ 2 ^ 252 - 1 < 2 ^ 252 ∧
    2 ^ 253 - 1 < 2 ^ 253 := by
  decide +kernel

/-- StartBeginsARunWhenIdle, StatusWordShowsItsFields and SoftResetKeepsTheMemories: the words, each phase, and a pack
command cut short in slot 63. -/
theorem witness_ctrl :
    ((1 : Word).getLsbD 0 = true ∧ (1 : Word).getLsbD 1 = false) ∧ State.reset.busy = false ∧ ready.busy = true ∧
      ((0xC : Word).getLsbD 0 = false ∧ (0xC : Word).getLsbD 1 = false) ∧ (2 : Word).getLsbD 1 = true ∧
      let s := { ready with imem := [(0, 0x2201003F)] }
      s.busy = true ∧ decode (s.imemWord s.pc.toNat) = .ok (.fpack false 1 63) ∧
        packSlot (.fpack false 1 63) = some 63 ∧ (63 : BitVec 8).toNat ≤ 63 := by
  decide +kernel

/-- SoftResetKeepsTheMemories, last clause: a run cut short at a command that is no pack command. -/
theorem witness_no_pack_cut_short :
    ¬∃ i slot, ready.busy = true ∧ decode (ready.imemWord ready.pc.toNat) = .ok i ∧ packSlot i = some slot ∧
      slot.toNat ≤ 63 := by
  rintro ⟨i, slot, -, hd, hp, -⟩
  rw [witness_running.2.2.1] at hd
  cases hd
  cases hp

/-- HardResetSetsTheResetTable, WindowWhileRunning, MisalignedAccessesOnlySetHerr and ReservedBitsReadZeroAndIgnoreWrites:
every register's offset, offsets at the ends of their ranges, both phases, both ways of not being an aligned word,
and words that agree on the bits read. -/
theorem witness_offsets :
    State.reset.hardReset = State.reset.hardReset ∧ ready.busy = true ∧ State.reset.busy = false ∧
      (∀ off ∈ [0x000, 0x004, 0x008, 0x00C, 0x010, 0x014, 0x018, 0x01C, 0x020, 0x024], off % 4 = 0 ∧ off < 4096) ∧
      (0x400 % 4 = 0 ∧ 0x400 < 4096) ∧ (0xFFC % 4 = 0 ∧ 0xFFC < 4096 ∧ 0x400 ≤ 0xFFC) ∧
      ((2 ≠ 4 ∨ 0 % 4 ≠ 0) ∧ (4 ≠ 4 ∨ 2 % 4 ≠ 0)) ∧ (0x028 % 4 = 0 ∧ 0x028 < 0x400 ∧ 0x3FC % 4 = 0 ∧ 0x3FC < 0x400) ∧
      (∀ k, k < 16 → (0x10001 : Word).getLsbD k = (1 : Word).getLsbD k) := by
  refine ⟨rfl, rfl, rfl, ?_⟩
  decide +kernel

/-- GroupRoundTrip: a state whose registers hold a point of 2E, and the last slot. -/
theorem witness_group_round_trip :
    ready.g[(1 : Fin 16)] = .point basePoint ∧ InTwoE basePoint ∧ (63 : BitVec 8).toNat ≤ 63 :=
  ⟨by simp [ready], witness_two_e.1, by decide⟩

/-- RegisterFilesShowInTheWindow, HostWordsOfTheMemories and HostReadsHaveNoSideEffect: an idle state, the last words of
both memories, and an aligned word. -/
theorem witness_idle_window :
    State.reset.busy = false ∧ 511 < 512 ∧ 3 < 4 ∧ 255 < 256 ∧ aligned 0xFFC 4 = true := by
  decide

end Sys2Proof.Tests
end

section
/-! The window's registers one by one: what an aligned host access does at each offset, and which bits of the words
that hosts read and write carry a field (10_state.md R60 to R71, 20_memory.md R106, R107). -/

namespace Sys2Proof.Machine

/-! ### Aligned accesses -/

theorem hostReadAny_four (s : State) {off : Nat} (h : off % 4 = 0) : s.hostReadAny off 4 = s.hostRead off := by
  rw [State.hostReadAny, if_pos (aligned_four h)]

theorem hostWriteAny_four (s : State) {off : Nat} (h : off % 4 = 0) (w : Word) :
    s.hostWriteAny off 4 w = s.hostWrite off w := by
  rw [State.hostWriteAny, if_pos (aligned_four h)]

/-! ### Host reads, by offset -/

@[simp] theorem hostRead_pc (s : State) : s.hostRead 0x00C = s.returning (s.pc.setWidth 32) := rfl

@[simp] theorem hostRead_errpc (s : State) : s.hostRead 0x010 = s.returning (s.errpc.setWidth 32) := rfl

@[simp] theorem hostRead_breg (s : State) :
    s.hostRead 0x018 = if s.busy then s.returningDraw 16 else s.returning s.bregWord := rfl

/-- Above the last register and below IMEM nothing is read (10_state.md R71). -/
theorem hostRead_reserved (s : State) {off : Nat} (hlo : 0x024 < off) (hhi : off < 0x400) :
    s.hostRead off = s.returning 0 := by
  simp (disch := omega) only [State.hostRead, if_neg, if_pos]

@[simp] theorem returningDraw_readData (s : State) (n : Nat) :
    (s.returningDraw n).readData = (Config.draw n s.draws).setWidth 32 := rfl

/-! ### Host writes, by offset -/

@[simp] theorem hostWrite_ctrl (s : State) (w : Word) : s.hostWrite 0x004 w = s.writeCtrl w := rfl

@[simp] theorem hostWrite_status (s : State) (w : Word) : s.hostWrite 0x008 w = s.writeStatus w := rfl

@[simp] theorem hostWrite_pc (s : State) (w : Word) :
    s.hostWrite 0x00C w = s.idleWrite { s with pc := w.setWidth 8 } := rfl

@[simp] theorem hostWrite_breg (s : State) (w : Word) :
    s.hostWrite 0x018 w = s.idleWrite { s with b := Vector.ofFn fun i => w.getLsbD i } := rfl

/-- Below IMEM only CTRL, STATUS, PC and BREG can be written (10_state.md R60, R71). -/
theorem hostWrite_ignored (s : State) (w : Word) {off : Nat} (hctrl : off ≠ 0x004) (hstatus : off ≠ 0x008)
    (hpc : off ≠ 0x00C) (hbreg : off ≠ 0x018) (himem : off < 0x400) : s.hostWrite off w = s := by
  rw [State.hostWrite, if_neg hctrl, if_neg hstatus, if_neg hpc, if_neg hbreg, if_pos himem]

/-! ### The bits of the words read -/

/-- A word made from a number below 2^n has no bit from `n` on. -/
theorem getLsbD_ofNat_eq_false {v n k : Nat} (hv : v < 2 ^ n) (hk : n ≤ k) : (BitVec.ofNat 32 v).getLsbD k = false := by
  have hbit : v.testBit k = false := Nat.testBit_lt_two_pow (hv.trans_le (Nat.pow_le_pow_right (by decide) hk))
  simp [BitVec.getLsbD_ofNat, hbit]

/-- A word widened from `n` bits has no bit from `n` on. -/
theorem getLsbD_widened_eq_false {n k : Nat} (x : BitVec n) (hk : n ≤ k) : (x.setWidth 32).getLsbD k = false := by
  rw [BitVec.getLsbD_setWidth, BitVec.getLsbD_of_ge x k hk, Bool.and_false]

/-- CTRL holds nothing above IE_ERR, bit 3 (10_state.md R62). -/
theorem ctrlWord_getLsbD_reserved (s : State) {k : Nat} (hk : 4 ≤ k) : s.ctrlWord.getLsbD k = false := by
  have hdone := s.ieDone.toNat_lt
  have herr := s.ieErr.toNat_lt
  exact getLsbD_ofNat_eq_false (by omega) hk

/-- STATUS by bytes: the four flags, then ERRCODE, then IRQ (10_state.md R63). -/
theorem statusWord_eq (s : State) :
    s.statusWord = BitVec.ofNat 32 (2 ^ 8 * (s.errcode.toNat + 2 ^ 8 * s.irq.toNat)
      + (s.busy.toNat + 2 * s.done.toNat + 4 * s.err.toNat + 8 * s.herr.toNat)) := by
  rw [State.statusWord]
  congr 1
  ring

/-- STATUS holds nothing between HERR, bit 3, and ERRCODE, bits 15 to 8, and nothing above IRQ, bit 16
(10_state.md R63). -/
theorem statusWord_getLsbD_reserved (s : State) {k : Nat} (hk : (4 ≤ k ∧ k ≤ 7) ∨ 17 ≤ k) :
    s.statusWord.getLsbD k = false := by
  have hflags : s.busy.toNat + 2 * s.done.toNat + 4 * s.err.toNat + 8 * s.herr.toNat < 2 ^ 4 := by
    have hbusy := s.busy.toNat_lt
    have hdone := s.done.toNat_lt
    have herr := s.err.toNat_lt
    have hherr := s.herr.toNat_lt
    omega
  rw [statusWord_eq]
  obtain ⟨hlo, hhi⟩ | hirq := hk
  · have hbit := Nat.testBit_lt_two_pow (hflags.trans_le (Nat.pow_le_pow_right (by decide) hlo))
    rw [BitVec.getLsbD_ofNat, Nat.testBit_two_pow_mul_add _ (hflags.trans (by decide)), if_pos (by omega), hbit,
      Bool.and_false]
  · have hcode := s.errcode.isLt
    have hirq_lt := s.irq.toNat_lt
    exact getLsbD_ofNat_eq_false (n := 17) (by omega) hirq

/-- BREG shows 16 B bits while Idle and a 16-bit draw while Running (10_state.md R67, 20_memory.md R107). -/
theorem hostRead_breg_getLsbD_reserved (s : State) {k : Nat} (hk : 16 ≤ k) :
    (s.hostRead 0x018).readData.getLsbD k = false := by
  rw [hostRead_breg]
  split
  · rw [returningDraw_readData]
    exact getLsbD_widened_eq_false _ hk
  · rw [returning_readData]
    exact getLsbD_ofNat_eq_false ((bitsToNat_lt _).trans_eq (by simp)) hk

/-! ### The bits of the words written: a write looks at no other bit -/

section
variable {w w' : Word}

theorem writeCtrl_congr (s : State) (h : ∀ k, k < 4 → w.getLsbD k = w'.getLsbD k) :
    s.writeCtrl w = s.writeCtrl w' := by
  simp only [State.writeCtrl, h 0 (by decide), h 1 (by decide), h 2 (by decide), h 3 (by decide)]

theorem writeStatus_congr (s : State) (h : ∀ k, k < 4 → w.getLsbD k = w'.getLsbD k) :
    s.writeStatus w = s.writeStatus w' := by
  simp only [State.writeStatus, h 1 (by decide), h 2 (by decide), h 3 (by decide)]

theorem hostWrite_pc_congr (s : State) (h : ∀ k, k < 8 → w.getLsbD k = w'.getLsbD k) :
    s.hostWrite 0x00C w = s.hostWrite 0x00C w' := by
  have hpc : w.setWidth 8 = w'.setWidth 8 := BitVec.eq_of_getLsbD_eq fun k hk => by
    rw [BitVec.getLsbD_setWidth, BitVec.getLsbD_setWidth, h k hk]
  rw [hostWrite_pc, hostWrite_pc, hpc]

theorem hostWrite_breg_congr (s : State) (h : ∀ k, k < 16 → w.getLsbD k = w'.getLsbD k) :
    s.hostWrite 0x018 w = s.hostWrite 0x018 w' := by
  have hbits : (fun i : Fin 16 => w.getLsbD i) = fun i : Fin 16 => w'.getLsbD i := funext fun i => h i i.isLt
  rw [hostWrite_breg, hostWrite_breg, hbits]

end

end Sys2Proof.Machine
end

section
/-! Reserved offsets and bits of the window, and its read-only registers (10_state.md R71). -/

namespace Sys2Proof.Machine

/-- The read-only registers ID, ERRPC, ERRWORD, FSVALID, GVALID and RETIRED ignore every write. -/
theorem hostWriteAny_readOnly (s : State) (w : Word) {off : Nat}
    (h : off ∈ [0x000, 0x010, 0x014, 0x01C, 0x020, 0x024]) : s.hostWriteAny off 4 w = s := by
  simp only [List.mem_cons, List.not_mem_nil, or_false] at h
  rw [hostWriteAny_four s (by omega)]
  exact hostWrite_ignored s w (by omega) (by omega) (by omega) (by omega) (by omega)

/-- A reserved offset reads 0 and ignores every write, and neither sets HERR. -/
theorem hostAccess_reserved (s : State) {off : Nat} (h4 : off % 4 = 0) (hlo : 0x028 ≤ off) (hhi : off < 0x400) :
    s.hostReadAny off 4 = s.returning 0 ∧ ∀ w, s.hostWriteAny off 4 w = s := by
  refine ⟨?_, fun w => ?_⟩
  · rw [hostReadAny_four s h4]
    exact hostRead_reserved s (by omega) hhi
  · rw [hostWriteAny_four s h4]
    exact hostWrite_ignored s w (by omega) (by omega) (by omega) (by omega) hhi

/-- PC and ERRPC are 8 bits wide. -/
theorem hostReadAny_pcs_getLsbD_reserved (s : State) {k : Nat} (hk : 8 ≤ k) :
    (s.hostReadAny 0x00C 4).readData.getLsbD k = false ∧ (s.hostReadAny 0x010 4).readData.getLsbD k = false := by
  rw [hostReadAny_four s rfl, hostReadAny_four s rfl, hostRead_pc, hostRead_errpc, returning_readData,
    returning_readData]
  exact ⟨getLsbD_widened_eq_false _ hk, getLsbD_widened_eq_false _ hk⟩

/-- Two words that agree on a register's writable bits have the same effect when written to it. -/
theorem hostWriteAny_congr (s : State) {w w' : Word} (h : ∀ k, k < 4 → w.getLsbD k = w'.getLsbD k) :
    s.hostWriteAny 0x004 4 w = s.hostWriteAny 0x004 4 w' ∧ s.hostWriteAny 0x008 4 w = s.hostWriteAny 0x008 4 w' ∧
    ((∀ k, k < 8 → w.getLsbD k = w'.getLsbD k) → s.hostWriteAny 0x00C 4 w = s.hostWriteAny 0x00C 4 w') ∧
    ((∀ k, k < 16 → w.getLsbD k = w'.getLsbD k) → s.hostWriteAny 0x018 4 w = s.hostWriteAny 0x018 4 w') := by
  simp only [hostWriteAny_four, Nat.reduceMod, hostWrite_ctrl, hostWrite_status]
  exact ⟨writeCtrl_congr s h, writeStatus_congr s h, hostWrite_pc_congr s, hostWrite_breg_congr s⟩

/-- Settles O54, register by register: each reserved offset, each register's unused bits, and each write. -/
theorem reservedBitsReadZeroAndIgnoreWrites : Obligations.ReservedBitsReadZeroAndIgnoreWrites := by
  intro s
  refine ⟨fun _ h4 hlo hhi => hostAccess_reserved s h4 hlo hhi, fun _ hoff w => hostWriteAny_readOnly s w hoff,
    fun _ hk => ctrlWord_getLsbD_reserved s hk, fun _ hk => statusWord_getLsbD_reserved s hk,
    fun _ hk => hostReadAny_pcs_getLsbD_reserved s hk, fun k hk => ?breg, fun _ _ h => hostWriteAny_congr s h⟩
  case breg =>
    rw [hostReadAny_four s rfl]
    exact hostRead_breg_getLsbD_reserved s hk

end Sys2Proof.Machine
end

section
/-! The host's words of the two memories while Idle: what an aligned host access does at each offset of IMEM and DMEM,
and the bytes of a DMEM word (20_memory.md R102, R103). -/

namespace Sys2Proof.Machine

/-! ### Bytes of integers and of words -/

theorem leInt_lt (bs : List Byte) : leInt bs < 256 ^ bs.length := by
  induction bs with
  | nil => simp [leInt]
  | cons b bs ih =>
    have hb := b.isLt
    rw [leInt, List.length_cons, Nat.pow_succ']
    omega

/-- `le_int` keeps every byte at its place. -/
theorem leInt_div_mod (bs : List Byte) {k : Nat} (h : k < bs.length) : leInt bs / 256 ^ k % 256 = bs[k].toNat := by
  induction bs generalizing k with
  | nil => simp at h
  | cons b bs ih =>
    have hb := b.isLt
    cases k with
    | zero =>
      rw [leInt, List.getElem_cons_zero]
      omega
    | succ k =>
      have hshift : leInt (b :: bs) / 256 = leInt bs := by
        rw [leInt]
        omega
      rw [Nat.pow_succ', ← Nat.div_div_eq_div_mul, hshift, List.getElem_cons_succ]
      exact ih (Nat.lt_of_succ_lt_succ h)

/-- Bits 8j to 8j+7 of a word are its j-th base-256 digit. -/
theorem toNat_extractLsb'_byte (w : Word) (j : Nat) : (w.extractLsb' (8 * j) 8).toNat = w.toNat / 256 ^ j % 256 := by
  rw [BitVec.extractLsb'_toNat, Nat.shiftRight_eq_div_pow, Nat.pow_mul]

@[simp] theorem length_bytesOfWord (w : Word) : (bytesOfWord w).length = 4 := length_leBytes _ _

theorem getElem_bytesOfWord (w : Word) {j : Nat} (h : j < (bytesOfWord w).length) :
    (bytesOfWord w)[j] = w.extractLsb' (8 * j) 8 :=
  BitVec.eq_of_toNat_eq ((getElem_leBytes _ _ _ h).trans (toNat_extractLsb'_byte w j).symm)

/-! ### Memory bytes and words -/

@[simp] theorem getElem_dmemBytes (s : State) (a n : Nat) {j : Nat} (h : j < (s.dmemBytes a n).length) :
    (s.dmemBytes a n)[j] = s.dmemByte (a + j) := by
  induction n generalizing a j with
  | zero => simp at h
  | succ n ih =>
    cases j with
    | zero => rfl
    | succ j =>
      simp only [State.dmemBytes, List.getElem_cons_succ]
      rw [ih, Nat.add_right_comm, Nat.add_assoc]

/-- Byte j of the host word at address `a` is DMEM[a + j] (20_memory.md R103). -/
theorem dmemWord_byte (s : State) (a : Nat) {j : Nat} (hj : j < 4) :
    (s.dmemWord a).extractLsb' (8 * j) 8 = s.dmemByte (a + j) := by
  have hfits : leInt (s.dmemBytes a 4) < 2 ^ 32 := (leInt_lt _).trans_eq (by rw [length_dmemBytes]; rfl)
  apply BitVec.eq_of_toNat_eq
  rw [toNat_extractLsb'_byte, State.dmemWord, BitVec.toNat_ofNat, Nat.mod_eq_of_lt hfits,
    leInt_div_mod _ (by rwa [length_dmemBytes]), getElem_dmemBytes]

/-- DMEM after the bytes `bs` are stored from address `a` on: they stand there, every other byte is as before. -/
theorem dmemByte_writeRun (s : State) (a b : Nat) (bs : List Byte) :
    { s with dmem := Memory.writeRun s.dmem a bs }.dmemByte b =
      if h : a ≤ b ∧ b < a + bs.length then bs[b - a]'(by omega) else s.dmemByte b := by
  rw [State.dmemByte, Memory.read_writeRun]
  split <;> rfl

/-- IMEM after a write of word `k`. -/
theorem imemWord_imemWrite (s : State) (k k' : Nat) (w : Word) :
    (s.imemWrite k w).imemWord k' = if k = k' then w else s.imemWord k' := by
  rw [State.imemWord, imemWrite_imem, Memory.read_write]
  split <;> rfl

/-! ### Host accesses of the memories, by offset -/

theorem idleWrite_of_idle {s : State} (h : s.busy = false) (t : State) : s.idleWrite t = t := by
  simp [State.idleWrite, h]

theorem hostWrite_imem (s : State) (w : Word) {k : Nat} (hk : k < 256) :
    s.hostWrite (0x400 + 4 * k) w = s.idleWrite (s.imemWrite k w) := by
  have hword : (0x400 + 4 * k - 0x400) / 4 = k := by omega
  simp (disch := omega) only [State.hostWrite, if_neg, if_pos, hword]

theorem hostWrite_dmem (s : State) (w : Word) (m : Nat) :
    s.hostWrite (0x800 + 4 * m) w =
      s.idleWrite { s with dmem := Memory.writeRun s.dmem (4 * m) (bytesOfWord w) } := by
  simp (disch := omega) only [State.hostWrite, if_neg, Nat.add_sub_cancel_left]

theorem hostRead_imem_of_idle {s : State} (hidle : s.busy = false) {k : Nat} (hk : k < 256) :
    s.hostRead (0x400 + 4 * k) = s.returning (s.imemWord k) := by
  have hword : (0x400 + 4 * k - 0x400) / 4 = k := by omega
  simp (disch := omega) only [State.hostRead, if_neg, if_pos, hword, hidle, Bool.false_eq_true, if_false]

theorem hostRead_dmem_of_idle {s : State} (hidle : s.busy = false) (m : Nat) :
    s.hostRead (0x800 + 4 * m) = s.returning (s.dmemWord (4 * m)) := by
  simp (disch := omega) only [State.hostRead, if_neg, hidle, Bool.false_eq_true, if_false, Nat.add_sub_cancel_left]

/-! ### The obligation -/

section
variable {s : State} (hidle : s.busy = false)
include hidle

/-- A host write of DMEM word m sets bytes 4m to 4m+3, lowest byte first, and nothing else. -/
theorem hostWriteAny_dmem_of_idle (w : Word) (m : Nat) :
    ∃ t, s.hostWriteAny (0x800 + 4 * m) 4 w = t ∧ t = { s with dmem := t.dmem } ∧
      (∀ j, j < 4 → t.dmemByte (4 * m + j) = w.extractLsb' (8 * j) 8) ∧
      ∀ a, (a < 4 * m ∨ 4 * m + 4 ≤ a) → t.dmemByte a = s.dmemByte a := by
  refine ⟨{ s with dmem := Memory.writeRun s.dmem (4 * m) (bytesOfWord w) }, ?_, rfl, fun j hj => ?_, fun a ha => ?_⟩
  · rw [hostWriteAny_four s (by omega), hostWrite_dmem, idleWrite_of_idle hidle]
  · rw [dmemByte_writeRun, dif_pos (by rw [length_bytesOfWord]; omega), getElem_bytesOfWord, Nat.add_sub_cancel_left]
  · rw [dmemByte_writeRun, dif_neg (by rw [length_bytesOfWord]; omega)]

/-- A host write of IMEM word k sets that word and nothing else. -/
theorem hostWriteAny_imem_of_idle (w : Word) {k : Nat} (hk : k < 256) :
    ∃ t, s.hostWriteAny (0x400 + 4 * k) 4 w = t ∧ t = { s with imem := t.imem } ∧ t.imemWord k = w ∧
      ∀ k', k' ≠ k → t.imemWord k' = s.imemWord k' := by
  refine ⟨s.imemWrite k w, ?_, rfl, ?_, fun k' hne => ?_⟩
  · rw [hostWriteAny_four s (by omega), hostWrite_imem s w hk, idleWrite_of_idle hidle]
  · rw [imemWord_imemWrite, if_pos rfl]
  · rw [imemWord_imemWrite, if_neg hne.symm]

end

/-- Settles O57: each clause is what the aligned access at the word's offset does in an Idle state. -/
theorem hostWordsOfTheMemories : Obligations.HostWordsOfTheMemories := by
  intro s w hidle
  refine ⟨fun m _ => hostWriteAny_dmem_of_idle hidle w m, fun m j _ hj => ?dmemRead,
    fun k hk => ⟨?imemRead, hostWriteAny_imem_of_idle hidle w hk⟩⟩
  case dmemRead =>
    rw [hostReadAny_four s (by omega), hostRead_dmem_of_idle hidle, returning_readData]
    exact dmemWord_byte s (4 * m) hj
  case imemRead => rw [hostReadAny_four s (by omega), hostRead_imem_of_idle hidle hk, returning_readData]

end Sys2Proof.Machine
end

section
/-! The decoder as the table's selection by mask and match (30_encoding.md R148), and the words of its examples
(30_encoding.md R155). -/

namespace Sys2Proof

/-! ### The fields of two words' AND -/

/-- The AND of two words, field by field. -/
def Fields.and (f g : Fields) : Fields :=
  { opc := f.opc &&& g.opc, v := f.v && g.v, rd := f.rd &&& g.rd, ra := f.ra &&& g.ra, rb := f.rb &&& g.rb,
    rc := f.rc &&& g.rc, imm := f.imm &&& g.imm }

theorem finOfNat_and (a b : Nat) : Fin.ofNat 16 (a &&& b) = Fin.ofNat 16 a &&& Fin.ofNat 16 b := by
  have hand : (a &&& b) % 2 ^ 4 = a % 2 ^ 4 &&& b % 2 ^ 4 := Nat.and_mod_two_pow
  apply Fin.ext
  rw [Fin.and_val]
  exact hand

theorem odd_and (a b : Nat) : ((a &&& b) % 2 == 1) = (a % 2 == 1 && b % 2 == 1) := by
  rw [Bool.eq_iff_iff]
  simp only [beq_iff_eq, Bool.and_eq_true, Nat.and_mod_two_eq_one]

/-- Extracting fields commutes with AND: each field is a run of bits (30_encoding.md R140). -/
theorem fieldsOf_and (w m : Word) : fieldsOf (w &&& m) = (fieldsOf w).and (fieldsOf m) := by
  simp only [fieldsOf, Fields.and, BitVec.toNat_and, Nat.and_div_two_pow, BitVec.ofNat_and, finOfNat_and, odd_and]

/-! ### Mask and match of a row, as fields -/

/-- The fields of the mask of a row that uses `u`: OPC and the unused fields, never V (30_encoding.md R151). -/
def Uses.maskFields (u : Uses) : Fields :=
  { opc := BitVec.allOnes 7
    rd := if u.rd then 0 else 15
    ra := if u.ra then 0 else 15
    rb := if u.rb then 0 else 15
    rc := if u.rc then 0 else 15
    imm := if u.imm then 0 else BitVec.allOnes 8 }

theorem mask_matchBits_of_mem {r : Row} (h : r ∈ rows) :
    r.mask = wordOf r.uses.maskFields ∧ r.matchBits = wordOf { opc := r.opc } := by
  have htable : ∀ r ∈ rows, r.mask = wordOf r.uses.maskFields ∧ r.matchBits = wordOf { opc := r.opc } := by
    decide
  exact htable r h

theorem and_maskNibble (used : Bool) (x : Fin 16) : x &&& (if used then 0 else 15) = 0 ↔ (used || x == 0) = true := by
  revert used x
  decide

theorem and_maskByte (used : Bool) (x : BitVec 8) :
    x &&& (if used then 0 else BitVec.allOnes 8) = 0 ↔ (used || x == 0) = true := by
  cases used with
  | true => simp
  | false => simp only [Bool.false_eq_true, if_false, BitVec.and_allOnes, Bool.false_or, beq_iff_eq]

/-- What masking leaves is the bare opcode exactly when the opcode agrees and the unused fields are zero. -/
theorem and_maskFields_eq_iff (u : Uses) (f : Fields) (o : BitVec 7) :
    f.and u.maskFields = { opc := o } ↔ f.opc = o ∧ unusedZero u f = true := by
  simp only [Fields.and, Uses.maskFields, Fields.mk.injEq, BitVec.and_allOnes, Bool.and_false, true_and, and_maskNibble,
    and_maskByte, unusedZero, Bool.and_eq_true, and_assoc]

/-- The table's selection of a row, `(w AND mask) = match`, said of the word's fields (30_encoding.md R148). -/
theorem and_mask_eq_matchBits_iff {r : Row} (h : r ∈ rows) (w : Word) :
    w &&& r.mask = r.matchBits ↔ (fieldsOf w).opc = r.opc ∧ unusedZero r.uses (fieldsOf w) = true := by
  obtain ⟨hmask, hmatch⟩ := mask_matchBits_of_mem h
  have hinj : Function.Injective fieldsOf := Function.LeftInverse.injective wordOf_fieldsOf
  rw [← hinj.eq_iff, hmask, hmatch, fieldsOf_and, fieldsOf_wordOf, fieldsOf_wordOf, and_maskFields_eq_iff]

/-! ### Rows differ in their opcodes -/

theorem eq_of_opc_eq {r r' : Row} (h : r ∈ rows) (h' : r' ∈ rows) (hopc : r.opc = r'.opc) : r = r' := by
  have hnodup : (rows.map Row.opc).Nodup := by decide
  exact List.inj_on_of_nodup_map hnodup h h' hopc

/-- The table assigns the opcode of each of its rows to that row. -/
theorem rowOf_opc_of_mem {r : Row} (h : r ∈ rows) : rowOf r.opc = some r := by
  have hfound : (rowOf r.opc).isSome := List.find?_isSome.2 ⟨r, h, beq_self_eq_true _⟩
  obtain ⟨r', hr'⟩ := Option.isSome_iff_exists.1 hfound
  rw [hr', eq_of_opc_eq (mem_of_rowOf hr') h (opc_of_rowOf hr')]

theorem eq_of_selects_same {w : Word} {r r' : Row} (h : r ∈ rows) (h' : r' ∈ rows)
    (hsel : w &&& r.mask = r.matchBits) (hsel' : w &&& r'.mask = r'.matchBits) : r = r' := by
  obtain ⟨hopc, -⟩ := (and_mask_eq_matchBits_iff h w).1 hsel
  obtain ⟨hopc', -⟩ := (and_mask_eq_matchBits_iff h' w).1 hsel'
  exact eq_of_opc_eq h h' (hopc.symm.trans hopc')

/-! ### The decoder is that selection -/

theorem decode_eq_ok_iff (w : Word) (i : Instr) :
    decode w = .ok i ↔ ∃ r ∈ rows, w &&& r.mask = r.matchBits ∧ i = r.build (fieldsOf w) := by
  constructor
  · intro h
    obtain ⟨r, hrow, hzero, hi⟩ := row_of_decode h
    have hmem := mem_of_rowOf hrow
    exact ⟨r, hmem, (and_mask_eq_matchBits_iff hmem w).2 ⟨(opc_of_rowOf hrow).symm, hzero⟩, hi⟩
  · rintro ⟨r, hmem, hsel, rfl⟩
    obtain ⟨hopc, hzero⟩ := (and_mask_eq_matchBits_iff hmem w).1 hsel
    exact decode_of_row rfl (hopc ▸ rowOf_opc_of_mem hmem) hzero

/-- A word that selects no row does not decode. -/
theorem decode_eq_error_of_no_row {w : Word} (h : ∀ r ∈ rows, w &&& r.mask ≠ r.matchBits) :
    ∃ e, decode w = .error e := by
  cases hd : decode w with
  | error e => exact ⟨e, rfl⟩
  | ok i =>
    obtain ⟨r, hmem, hsel, -⟩ := (decode_eq_ok_iff w i).1 hd
    exact absurd hsel (h r hmem)

namespace Machine

/-- A running engine that fetches an illegal word stops with ILLEGAL (30_encoding.md R148, 40_control.md R170). -/
theorem step_of_decode_error {s : State} {e : DecodeError} (hbusy : s.busy = true) (hagenda : s.agenda = [])
    (hd : decode (s.imemWord s.pc.toNat) = .error e) : step s = .next (s.errorStop .illegal) := by
  have hfetch : decode s.fetch = .error e := hd
  simp only [step, stepWith, hagenda, engineStep, hbusy, if_true, hfetch, raise]

/-- Settles O3, by the fields: masking keeps the opcode and the unused fields, which are what decides a
decoding. -/
theorem decodeSelectsTheRowThatMaskAndMatchSelect : Obligations.DecodeSelectsTheRowThatMaskAndMatchSelect := by
  refine ⟨decode_eq_ok_iff, fun w r h r' h' hsel hsel' => ?unique, fun s hbusy hagenda hnone => ?illegal⟩
  case unique => rw [eq_of_selects_same h h' hsel hsel']
  case illegal =>
    obtain ⟨e, hd⟩ := decode_eq_error_of_no_row hnone
    exact ⟨s.errorStop .illegal, step_of_decode_error hbusy hagenda hd, rfl⟩

end Machine

/-! ### The examples -/

/-- The encoding of a command that its own row builds decodes to the command. -/
theorem decode_encode_of_row {i : Instr} (h : Laws.RowOfTable.Statement i) : decode (encode i) = .ok i := by
  obtain ⟨r, hrow, hzero, hbuild⟩ := h
  rw [encode, decode_of_row (fieldsOf_wordOf _) hrow hzero, hbuild]

theorem decode_and_encode_of_row {i : Instr} {w : Word} (h : Laws.RowOfTable.Statement i) (hw : encode i = w) :
    decode w = .ok i ∧ encode i = w :=
  ⟨hw ▸ decode_encode_of_row h, hw⟩

/-- Settles O4: each example's word is its command's encoding, and so decodes to it. -/
theorem encodingExamplesOfTheSpec : Obligations.EncodingExamplesOfTheSpec :=
  ⟨decode_and_encode_of_row (Laws.RowOfTable.fadd ..) rfl,
    decode_and_encode_of_row (Laws.RowOfTable.fpack ..) rfl,
    decode_and_encode_of_row (Laws.RowOfTable.sunpack64 ..) rfl,
    decode_and_encode_of_row (Laws.RowOfTable.gunpack ..) rfl,
    decode_and_encode_of_row (Laws.RowOfTable.gmsm ..) rfl,
    decode_and_encode_of_row (Laws.RowOfTable.halt ..) rfl⟩

end Sys2Proof
end

section
/-! The frame of a retiring command that wrote one register or one slot, as the statements of `Safety` say it: every
unit's load, store and arithmetic commands end in such a state (40_control.md R170, R171). -/

namespace Sys2Proof.Machine

open Safety

/-- Retirement moves the PC or, at 255, stops with PCOVF. -/
theorem retired_retire (s : State) : Retired s s.retire := by
  refine ⟨retire_retired s, fun hpc => ?_, fun hpc => ?_⟩
  · rw [retire_of_ne hpc]
    simp
  · rw [retire_of_eq hpc]
    simp [hpc]

theorem sameShell_retire (s : State) : SameShell s s.retire := by
  simp [SameShell]

/-- A command that writes F[i] and retires touches nothing else. -/
theorem onlyF_setF_retire (s : State) (i : FReg) (v : Fe) : OnlyF s (s.setF i v).retire i v := by
  refine ⟨?wrote, by simp, by simp, by simp, by simp, by simp [SameMemory], sameShell_retire (s.setF i v),
    retired_retire (s.setF i v)⟩
  case wrote =>
    rw [retire_f, setF_f]
    exact wrote_set s.f i (some v)

theorem retired_dmemWrite_retire (s : State) (slot : BitVec 8) (bs : List Byte) :
    Retired s (s.dmemWrite slot bs).retire :=
  retired_retire (s.dmemWrite slot bs)

theorem sameShell_dmemWrite_retire (s : State) (slot : BitVec 8) (bs : List Byte) :
    SameShell s (s.dmemWrite slot bs).retire :=
  sameShell_retire (s.dmemWrite slot bs)

/-- A command that stores an integer's 32 bytes to a slot and retires touches nothing else. -/
theorem onlySlot_dmemWrite_retire (s : State) (slot : BitVec 8) (v : Nat) :
    OnlySlot s (s.dmemWrite slot (leBytes v 32)).retire slot v := by
  have hbase : slotBase slot = 32 * slot.toNat := rfl
  refine ⟨by simp, by simp, by simp, by simp, by simp, fun j hj => ?stored, ⟨fun a ha => ?kept, by simp⟩,
    sameShell_dmemWrite_retire .., retired_dmemWrite_retire ..⟩
  case stored =>
    rw [retire_dmemByte, dmemByte_dmemWrite, dif_pos (by rw [length_leBytes]; omega), getElem_leBytes, hbase,
      Nat.add_sub_cancel_left]
  case kept => rw [retire_dmemByte, dmemByte_dmemWrite, dif_neg (by rw [length_leBytes]; omega)]

end Sys2Proof.Machine
end

section
/-! The bytes of a slot and the integer they stand for (00_scope.md R7, R8). -/

namespace Sys2Proof.Machine

/-! ### Slots -/

theorem slotInRange_of_le {slot : BitVec 8} (h : slot.toNat ≤ 63) : slotInRange slot = true :=
  decide_eq_true (Nat.lt_succ_of_le h)

@[simp] theorem length_dmemRead (s : State) (slot : BitVec 8) (k : Nat) : (s.dmemRead slot k).length = 32 * k :=
  length_dmemBytes _ _ _

@[simp] theorem retire_dmemRead (s : State) (slot : BitVec 8) (k : Nat) : s.retire.dmemRead slot k = s.dmemRead slot k :=
  dmemBytes_congr fun _ _ => retire_dmemByte s _

@[simp] theorem setF_dmemRead (s : State) (i : FReg) (v : Fe) (slot : BitVec 8) (k : Nat) :
    (s.setF i v).dmemRead slot k = s.dmemRead slot k :=
  dmemBytes_congr fun _ _ => setF_dmemByte s i v _

/-- A slot reads back the 32 bytes stored to it. -/
theorem dmemRead_dmemWrite_same (s : State) (slot : BitVec 8) {bs : List Byte} (h : bs.length = 32) :
    (s.dmemWrite slot bs).dmemRead slot 1 = bs := by
  refine List.ext_getElem (by rw [length_dmemRead, h]) fun j _ hj => ?_
  simp only [State.dmemRead, getElem_dmemBytes]
  rw [dmemByte_dmemWrite, dif_pos (by omega)]
  simp only [Nat.add_sub_cancel_left]

/-- Slots that read the same hold the same bytes, one by one. -/
theorem dmemByte_eq_of_dmemRead_eq {s t : State} {n m : BitVec 8} (h : t.dmemRead m 1 = s.dmemRead n 1) {j : Nat}
    (hj : j < 32) : t.dmemByte (32 * m.toNat + j) = s.dmemByte (32 * n.toNat + j) := by
  have hbyte (u : State) (k : BitVec 8) : (u.dmemRead k 1)[j]? = some (u.dmemByte (32 * k.toNat + j)) := by
    rw [List.getElem?_eq_getElem (by rwa [length_dmemRead])]
    exact congrArg some (getElem_dmemBytes ..)
  exact Option.some.inj ((hbyte t m).symm.trans (h ▸ hbyte s n))

/-! ### Integers -/

/-- `le_int` of consecutive bytes of DMEM, as 41_field.md R192 sums it. -/
theorem leInt_dmemBytes (s : State) (a n : Nat) :
    leInt (s.dmemBytes a n) = ∑ j ∈ Finset.range n, (s.dmemByte (a + j)).toNat * 256 ^ j := by
  induction n generalizing a with
  | zero => rfl
  | succ n ih =>
    have hshift (j : Nat) : (s.dmemByte (a + (j + 1))).toNat * 256 ^ (j + 1)
        = 256 * ((s.dmemByte (a + 1 + j)).toNat * 256 ^ j) := by
      rw [Nat.add_right_comm a 1 j, Nat.add_assoc, Nat.pow_succ']
      exact Nat.mul_left_comm ..
    rw [State.dmemBytes, leInt, ih, Finset.sum_range_succ', Finset.sum_congr rfl fun j _ => hshift j,
      ← Finset.mul_sum, pow_zero, mul_one, add_zero, add_comm]

/-- `le_bytes` undoes `le_int`. -/
theorem leBytes_leInt (bs : List Byte) : leBytes (leInt bs) bs.length = bs := by
  refine List.ext_getElem (length_leBytes _ _) fun k _ hk => BitVec.eq_of_toNat_eq ?_
  rw [getElem_leBytes, leInt_div_mod bs hk]

/-- Bytes are those of an integer that fits exactly when they stand for it. -/
theorem leBytes_eq_iff {v n : Nat} {bs : List Byte} (hlen : bs.length = n) (hv : v < 256 ^ n) :
    leBytes v n = bs ↔ v = leInt bs := by
  subst hlen
  constructor
  · intro h
    rw [← h, leInt_leBytes v _ hv]
  · intro h
    rw [h, leBytes_leInt]

end Sys2Proof.Machine
end

section
/-! FUNPACK and FPACK: what each does on a slot in range, and that loading and storing undo each other (41_field.md R192,
R193, R200, R201, R229). -/

namespace Sys2Proof.Machine

open Safety

/-! ### Bytes of field values -/

theorem val_feUnpack (bs : List Byte) : (feUnpack bs).val = leInt bs % 2 ^ 255 % fieldPrime := rfl

theorem length_fePack (a : Fe) : (fePack a).length = 32 := length_leBytes _ _

theorem fePack_feUnpack (bs : List Byte) : fePack (feUnpack bs) = leBytes (leInt bs % 2 ^ 255 % fieldPrime) 32 := rfl

/-- A field value fits in 255 bits, so loading its canonical bytes drops nothing. -/
theorem feUnpack_fePack (a : Fe) : feUnpack (fePack a) = a := by
  have hfits : a.val < 2 ^ 255 := a.isLt.trans (by norm_num)
  have hint : leInt (fePack a) = a.val := leInt_leBytes _ _ (hfits.trans (by norm_num))
  apply Fin.ext
  rw [val_feUnpack, hint, Nat.mod_eq_of_lt hfits, Nat.mod_eq_of_lt a.isLt]

/-- Dropping bit 255 and reducing keeps exactly the canonical integers. -/
theorem residue_eq_self_iff (n : Nat) : n % 2 ^ 255 % fieldPrime = n ↔ n < fieldPrime := by
  constructor
  · intro h
    exact h ▸ Nat.mod_lt _ (by norm_num)
  · intro h
    rw [Nat.mod_eq_of_lt (h.trans (by norm_num)), Nat.mod_eq_of_lt h]

/-- Loading and storing 32 bytes gives them back exactly when they are canonical. -/
theorem fePack_feUnpack_eq_self_iff {bs : List Byte} (h : bs.length = 32) :
    fePack (feUnpack bs) = bs ↔ leInt bs < fieldPrime := by
  have hfits : leInt bs % 2 ^ 255 % fieldPrime < 256 ^ 32 := (Nat.mod_lt _ (by norm_num)).trans (by norm_num)
  rw [fePack_feUnpack, leBytes_eq_iff h hfits, residue_eq_self_iff]

/-! ### The two commands -/

/-- FUNPACK of a slot in range loads its bytes and retires. -/
theorem exec_funpack (s : State) (v : Bool) (rd : FReg) {slot : BitVec 8} (h : slot.toNat ≤ 63) :
    exec (.funpack v rd slot) s = .next (s.setF rd (feUnpack (s.dmemRead slot 1))).retire := by
  show execFunpack v rd slot s = _
  rw [execFunpack, slotInRange_of_le h, checkRange_true, complete]

/-- FPACK of a written register to a slot in range stores its canonical bytes and retires. -/
theorem exec_fpack {s : State} (v : Bool) {ra : FReg} {slot : BitVec 8} {a : Fe} (h : slot.toNat ≤ 63)
    (ha : s.f[ra] = some a) : exec (.fpack v ra slot) s = .next (s.dmemWrite slot (fePack a)).retire := by
  show execFpack v ra slot s = _
  rw [execFpack, slotInRange_of_le h, checkRange_true, readF_of_some ha, withSources_value]

/-- Settles O23: both commands' next states, with the frame of a retiring command. -/
theorem fieldLoadAndStore : Obligations.FieldLoadAndStore := by
  intro s v slot hslot
  refine ⟨fun rd => ⟨_, _, exec_funpack s v rd hslot, onlyF_setF_retire .., ?_⟩,
    fun ra a ha => ⟨_, exec_fpack v hslot ha, onlySlot_dmemWrite_retire s slot a.val⟩⟩
  rw [val_feUnpack]
  exact congrArg (· % 2 ^ 255 % fieldPrime) (leInt_dmemBytes s (32 * slot.toNat) 32)

/-! ### Round trips -/

/-- After FPACK the slot holds the register's canonical bytes. -/
theorem fpack_dmemRead {s : State} (v : Bool) {ra : FReg} {slot : BitVec 8} {a : Fe} (h : slot.toNat ≤ 63)
    (ha : s.f[ra] = some a) : ∃ t, exec (.fpack v ra slot) s = .next t ∧ t.dmemRead slot 1 = fePack a :=
  ⟨_, exec_fpack v h ha, by rw [retire_dmemRead, dmemRead_dmemWrite_same _ _ (length_fePack a)]⟩

/-- FUNPACK of one slot and FPACK to any slot: the second holds the canonical bytes of what the first held. -/
theorem funpack_fpack_dmemRead (s : State) (v : Bool) (rd : FReg) {n m : BitVec 8} (hn : n.toNat ≤ 63)
    (hm : m.toNat ≤ 63) :
    ∃ t u, exec (.funpack v rd n) s = .next t ∧ exec (.fpack v rd m) t = .next u ∧
      u.dmemRead m 1 = fePack (feUnpack (s.dmemRead n 1)) := by
  have hload : (s.setF rd (feUnpack (s.dmemRead n 1))).retire.f[rd] = some (feUnpack (s.dmemRead n 1)) := by simp
  obtain ⟨u, hstore, hread⟩ := fpack_dmemRead v hm hload
  exact ⟨_, u, exec_funpack s v rd hn, hstore, hread⟩

/-- Settles O32: the slot's bytes pass through the register as `fePack (feUnpack _)`, which keeps canonical bytes. -/
theorem fieldRoundTrip : Obligations.FieldRoundTrip := by
  intro s v rd ra n m hn hm
  refine ⟨fun a ha => ?value, ?bytes⟩
  case value =>
    obtain ⟨t, hpack, ht⟩ := fpack_dmemRead v hn ha
    obtain ⟨u, x, hunpack, hrepack, hx⟩ := funpack_fpack_dmemRead t v rd hn hm
    have hsame : x.dmemRead m 1 = t.dmemRead n 1 := by rw [hx, ht, feUnpack_fePack]
    exact ⟨t, u, x, hpack, hunpack, hrepack, fun j hj => dmemByte_eq_of_dmemRead_eq hsame hj⟩
  case bytes =>
    obtain ⟨t, u, hunpack, hpack, hu⟩ := funpack_fpack_dmemRead s v rd hn hm
    refine ⟨t, u, hunpack, hpack, hu.trans (fePack_feUnpack _), ?_⟩
    rw [hu]
    exact fePack_feUnpack_eq_self_iff (length_dmemRead s n 1)

end Sys2Proof.Machine
end

section
/-! The scalar unit's load, store and arithmetic commands: the next state of each, and the integer it writes
(42_scalar.md R262, R263, R272 to R279, R285). -/

namespace Sys2Proof.Machine

open Safety

/-! ### A scalar command that writes one register -/

/-- A command that writes S[i] and retires touches nothing else. -/
theorem onlyS_setS_retire (s : State) (i : SReg) (v : Scalar) : OnlyS s (s.setS i v).retire i v := by
  refine ⟨by simp, ?wrote, by simp, by simp, by simp, by simp [SameMemory], sameShell_retire (s.setS i v),
    retired_retire (s.setS i v)⟩
  case wrote =>
    rw [retire_sc, setS_sc]
    exact wrote_set s.sc i (some v)

/-- A command whose one source is a written S register has its effect on the scalar there and retires. -/
theorem withSources_readS {s : State} {ra : SReg} {a : Scalar} (ha : s.sc[ra] = some a) (effect : Scalar → State) :
    withSources (s.readS ra) s effect = .next (effect a).retire := by
  rw [readS_of_some ha, withSources_value]

/-- The same for two written S registers. -/
theorem withSources_both_readS {s : State} {ra rb : SReg} {a b : Scalar} (ha : s.sc[ra] = some a)
    (hb : s.sc[rb] = some b) (effect : Scalar × Scalar → State) :
    withSources ((s.readS ra).both (s.readS rb)) s effect = .next (effect (a, b)).retire := by
  rw [readS_of_some ha, readS_of_some hb, both_value, withSources_value]

/-! ### Load and store -/

theorem slotPairInRange_of_le {slot : BitVec 8} (h : slot.toNat ≤ 62) : slotPairInRange slot = true :=
  decide_eq_true (Nat.succ_lt_succ (Nat.lt_succ_of_le h))

theorem val_scUnpack (bs : List Byte) : (scUnpack bs).val = leInt bs % 2 ^ 253 % groupOrder := rfl

theorem val_scReduce (bs : List Byte) : (scReduce bs).val = leInt bs % groupOrder := rfl

/-- SUNPACK of a slot in range loads its bytes, masked and reduced, and retires. -/
theorem exec_sunpack (s : State) (v : Bool) (rd : SReg) {slot : BitVec 8} (h : slot.toNat ≤ 63) :
    exec (.sunpack v rd slot) s = .next (s.setS rd (scUnpack (s.dmemRead slot 1))).retire := by
  show execSunpack v rd slot s = _
  rw [execSunpack, slotInRange_of_le h, checkRange_true, complete]

/-- SUNPACK64 of two slots in range loads their bytes, reduced, and retires. -/
theorem exec_sunpack64 (s : State) (v : Bool) (rd : SReg) {slot : BitVec 8} (h : slot.toNat ≤ 62) :
    exec (.sunpack64 v rd slot) s = .next (s.setS rd (scReduce (s.dmemRead slot 2))).retire := by
  show execSunpack64 v rd slot s = _
  rw [execSunpack64, slotPairInRange_of_le h, checkRange_true, complete]

/-- SPACK of a written register to a slot in range stores the scalar's bytes and retires. -/
theorem exec_spack {s : State} (v : Bool) {ra : SReg} {slot : BitVec 8} {a : Scalar} (h : slot.toNat ≤ 63)
    (ha : s.sc[ra] = some a) : exec (.spack v ra slot) s = .next (s.dmemWrite slot (scPack a)).retire := by
  show execSpack v ra slot s = _
  rw [execSpack, slotInRange_of_le h, checkRange_true, withSources_readS ha]

/-- Settles O33: the three commands' next states, with the frame of a retiring command. -/
theorem scalarLoadAndStore : Obligations.ScalarLoadAndStore := by
  intro s v slot
  refine ⟨fun rd hslot => ⟨_, _, exec_sunpack s v rd hslot, onlyS_setS_retire .., ?one⟩,
    fun rd hslot => ⟨_, _, exec_sunpack64 s v rd hslot, onlyS_setS_retire .., ?two⟩,
    fun ra a hslot ha => ⟨_, exec_spack v hslot ha, onlySlot_dmemWrite_retire s slot a.val⟩⟩
  case one =>
    rw [val_scUnpack]
    exact congrArg (· % 2 ^ 253 % groupOrder) (leInt_dmemBytes s (32 * slot.toNat) 32)
  case two =>
    rw [val_scReduce]
    exact congrArg (· % groupOrder) (leInt_dmemBytes s (32 * slot.toNat) 64)

/-! ### Arithmetic -/

/-- Adding the subtrahend to a difference modulo l gives the minuend back. -/
theorem val_sub_add_mod (a b : Scalar) : ((a - b).val + b.val) % groupOrder = a.val := by
  rw [← Fin.val_add, sub_add_cancel]

/-- A scalar and its negation add up to a multiple of l. -/
theorem val_neg_add_mod (a : Scalar) : ((-a).val + a.val) % groupOrder = 0 := by
  rw [← Fin.val_add, neg_add_cancel, Fin.val_zero]

theorem val_mul_self (a : Scalar) : (a * a).val = a.val ^ 2 % groupOrder := by
  rw [Fin.val_mul, pow_two]

section

variable {s : State} {ra rb : SReg} {a b : Scalar} (v : Bool) (rd : SReg)

theorem exec_sadd (ha : s.sc[ra] = some a) (hb : s.sc[rb] = some b) :
    exec (.sadd v rd ra rb) s = .next (s.setS rd (a + b)).retire :=
  withSources_both_readS ha hb fun p => s.setS rd (p.1 + p.2)

theorem exec_ssub (ha : s.sc[ra] = some a) (hb : s.sc[rb] = some b) :
    exec (.ssub v rd ra rb) s = .next (s.setS rd (a - b)).retire :=
  withSources_both_readS ha hb fun p => s.setS rd (p.1 - p.2)

theorem exec_sneg (ha : s.sc[ra] = some a) : exec (.sneg v rd ra) s = .next (s.setS rd (-a)).retire :=
  withSources_readS ha fun x => s.setS rd (-x)

theorem exec_smul (ha : s.sc[ra] = some a) (hb : s.sc[rb] = some b) :
    exec (.smul v rd ra rb) s = .next (s.setS rd (a * b)).retire :=
  withSources_both_readS ha hb fun p => s.setS rd (p.1 * p.2)

theorem exec_ssqr (ha : s.sc[ra] = some a) : exec (.ssqr v rd ra) s = .next (s.setS rd (a * a)).retire :=
  withSources_readS ha fun x => s.setS rd (x * x)

end

/-- Settles O34: each command's next state writes a scalar operation's result, whose integer is the residue. -/
theorem scalarArithmeticResults : Obligations.ScalarArithmeticResults := by
  intro s v rd ra rb a b ha hb
  exact ⟨⟨_, _, exec_sadd v rd ha hb, onlyS_setS_retire .., Fin.val_add a b⟩,
    ⟨_, _, exec_ssub v rd ha hb, onlyS_setS_retire .., val_sub_add_mod a b⟩,
    ⟨_, _, exec_sneg v rd ha, onlyS_setS_retire .., val_neg_add_mod a⟩,
    ⟨_, _, exec_smul v rd ha hb, onlyS_setS_retire .., Fin.val_mul a b⟩,
    ⟨_, _, exec_ssqr v rd ha, onlyS_setS_retire .., val_mul_self a⟩⟩

end Sys2Proof.Machine
end

section
/-! The group law on the curve, in Mathlib's field: the curve equation and the coordinates of a sum there, and why the sum
of a point and its negation has no vanishing denominator, which is that D is no square (43_group.md R310, R311, R313,
R314). -/

namespace Sys2Proof.Machine

/-! ### Points in Mathlib's field -/

/-- Two points are equal when their coordinates are equal in Mathlib's field. -/
theorem pt_eq_of_inField {P Q : Pt} (hx : inField P.x = inField Q.x) (hy : inField P.y = inField Q.y) : P = Q := by
  cases P
  cases Q
  rw [Pt.mk.injEq]
  exact ⟨inField_inj.1 hx, inField_inj.1 hy⟩

/-- The curve equation in Mathlib's field (43_group.md R310). -/
theorem onCurve_iff (P : Pt) : onCurve P = true ↔
    inField P.y ^ 2 - inField P.x ^ 2 = 1 + inField curveD * inField P.x ^ 2 * inField P.y ^ 2 := by
  rw [onCurve, beq_iff_eq, ← inField_inj]
  simp only [inField_add, inField_mul, inField_sub, inField_one, pow_two, neg_add_eq_sub]

/-- The first coordinate of a sum in Mathlib's field (43_group.md R313). -/
theorem inField_ptAdd_x (P Q : Pt) : inField (ptAdd P Q).x =
    (inField P.x * inField Q.y + inField P.y * inField Q.x) *
      (1 + inField curveD * inField P.x * inField Q.x * inField P.y * inField Q.y)⁻¹ := by
  simp [ptAdd]

/-- The second coordinate of a sum in Mathlib's field (43_group.md R313). -/
theorem inField_ptAdd_y (P Q : Pt) : inField (ptAdd P Q).y =
    (inField P.y * inField Q.y + inField P.x * inField Q.x) *
      (1 - inField curveD * inField P.x * inField Q.x * inField P.y * inField Q.y)⁻¹ := by
  simp [ptAdd]

@[simp] theorem neutral_x : neutral.x = 0 := rfl

@[simp] theorem neutral_y : neutral.y = 1 := rfl

@[simp] theorem ptNeg_x (P : Pt) : (ptNeg P).x = -P.x := rfl

@[simp] theorem ptNeg_y (P : Pt) : (ptNeg P).y = P.y := rfl

/-! ### D is no square, and -1 is one -/

/-- The model's square root of -1, in Mathlib's field (41_field.md R194). -/
theorem inField_sqrtM1_sq : inField sqrtM1 ^ 2 = -1 := by
  have h : sqrtM1 * sqrtM1 = -1 := by decide +kernel
  rw [pow_two, ← inField_mul, h, inField_neg, inField_one]

/-- Euler's criterion for D: its power by half of p - 1 is -1. -/
theorem inField_curveD_pow_half : inField curveD ^ (fieldPrime / 2) = -1 := by
  have h : fePow curveD (fieldPrime / 2) = -1 := by decide +kernel
  rw [← inField_fePow _ _ (by norm_num), h, inField_neg, inField_one]

theorem one_ne_neg_one_inField : (1 : ZMod fieldPrime) ≠ -1 := by
  have h : (1 : Fe) ≠ -1 := by decide +kernel
  rwa [← inField_one, ← inField_neg, Ne, inField_inj]

/-- D is no square of the field, which makes the group law complete (43_group.md R311, R313). -/
theorem not_isSquare_inField_curveD : ¬ IsSquare (inField curveD) := by
  have : Fact (Nat.Prime fieldPrime) := ⟨fieldPrime_prime⟩
  have hpow := inField_curveD_pow_half
  have hne : inField curveD ≠ 0 := fun h => by
    rw [h, zero_pow (by norm_num)] at hpow
    exact neg_ne_zero.2 one_ne_zero hpow.symm
  rw [ZMod.euler_criterion fieldPrime hne, hpow]
  exact one_ne_neg_one_inField.symm

/-- On the curve 1 + D*x^2*y^2 is never 0: it would make y^2 = x^2, so D = (sqrtM1/x^2)^2. -/
theorem one_add_curveD_mul_ne_zero {P : Pt} (hP : onCurve P = true) :
    1 + inField curveD * inField P.x ^ 2 * inField P.y ^ 2 ≠ 0 := by
  have : Fact (Nat.Prime fieldPrime) := ⟨fieldPrime_prime⟩
  intro hzero
  have hyx : inField P.y ^ 2 = inField P.x ^ 2 := sub_eq_zero.1 (((onCurve_iff P).1 hP).trans hzero)
  rw [hyx] at hzero
  have hx : inField P.x ≠ 0 := fun h => by simp [h] at hzero
  refine not_isSquare_inField_curveD ⟨inField sqrtM1 / inField P.x ^ 2, ?_⟩
  have hi := inField_sqrtM1_sq
  field_simp
  linear_combination hzero - hi

/-! ### The laws -/

/-- The neutral element adds nothing to a point, on the curve or not. -/
theorem ptAdd_neutral (P : Pt) : ptAdd P neutral = P :=
  pt_eq_of_inField (by simp [inField_ptAdd_x]) (by simp [inField_ptAdd_y])

/-- Addition is commutative, on the curve or not: numerators and denominators are symmetric. -/
theorem ptAdd_comm (P Q : Pt) : ptAdd P Q = ptAdd Q P := by
  have : Fact (Nat.Prime fieldPrime) := ⟨fieldPrime_prime⟩
  refine pt_eq_of_inField ?x ?y
  case x =>
    rw [inField_ptAdd_x, inField_ptAdd_x]
    ring
  case y =>
    rw [inField_ptAdd_y, inField_ptAdd_y]
    ring

/-- A point of the curve and its negation add up to the neutral element: the second coordinate is the quotient of the two
sides of the curve equation (43_group.md R314). -/
theorem ptAdd_ptNeg {P : Pt} (hP : onCurve P = true) : ptAdd P (ptNeg P) = neutral := by
  have : Fact (Nat.Prime fieldPrime) := ⟨fieldPrime_prime⟩
  refine pt_eq_of_inField ?x ?y
  case x =>
    have hnum : inField P.x * inField P.y + inField P.y * -inField P.x = 0 := by ring
    rw [inField_ptAdd_x, ptNeg_x, ptNeg_y, inField_neg, hnum, zero_mul, neutral_x, inField_zero]
  case y =>
    have hnum : inField P.y * inField P.y + inField P.x * -inField P.x =
        1 + inField curveD * inField P.x ^ 2 * inField P.y ^ 2 := by
      rw [← (onCurve_iff P).1 hP]
      ring
    have hden : 1 - inField curveD * inField P.x * -inField P.x * inField P.y * inField P.y =
        1 + inField curveD * inField P.x ^ 2 * inField P.y ^ 2 := by ring
    rw [inField_ptAdd_y, ptNeg_x, ptNeg_y, inField_neg, hnum, hden, mul_inv_cancel₀ (one_add_curveD_mul_ne_zero hP),
      neutral_y, inField_one]

/-- Negation undoes itself, on the curve or not. -/
theorem ptNeg_ptNeg (P : Pt) : ptNeg (ptNeg P) = P :=
  pt_eq_of_inField (by simp) rfl

/-- Negation neither reaches nor leaves the curve: its equation holds x squared only. -/
@[simp] theorem onCurve_ptNeg (P : Pt) : onCurve (ptNeg P) = onCurve P := by
  rw [Bool.eq_iff_iff, onCurve_iff, onCurve_iff, ptNeg_x, ptNeg_y, inField_neg, neg_sq]

/-- Settles O45: only the sum of a point and its negation needs the curve. -/
theorem negationAndGroupLaws : Obligations.NegationAndGroupLaws := by
  intro P Q hP _
  exact ⟨rfl, ptAdd_neutral P, ptAdd_ptNeg hP, ptAdd_comm P Q, ptNeg_ptNeg P, (onCurve_ptNeg P).trans hP⟩

end Sys2Proof.Machine
end

section
/-! START: what a write to CTRL does in each phase when it asks for no soft reset (60_exceptions.md R375,
10_state.md R62). -/

namespace Sys2Proof.Machine

/-- START while Running is ignored but for HERR (60_exceptions.md R375). -/
theorem start_of_running {s : State} (hrunning : s.busy = true) : s.start = { s with herr := true } := by
  rw [State.start, if_pos hrunning]

/-- START while Idle clears what the last run left in STATUS, ERRPC, ERRWORD and RETIRED and begins a run from the
registers as they are (60_exceptions.md R375). -/
theorem start_of_idle {s : State} (hidle : s.busy = false) :
    s.start = { s with done := false, err := false, errcode := 0, errpc := 0, errword := 0, retired := 0,
                       busy := true } := by
  rw [State.start, if_neg (Bool.eq_false_iff.1 hidle)]

/-- A write to CTRL with START and without SOFT_RESET sets the enables first and applies START to the result
(10_state.md R62). -/
theorem writeCtrl_of_start (s : State) {w : Word} (hstart : w.getLsbD 0 = true) (hsoft : w.getLsbD 1 = false) :
    s.writeCtrl w = { s with ieDone := w.getLsbD 2, ieErr := w.getLsbD 3 }.start := by
  rw [State.writeCtrl, if_neg (Bool.eq_false_iff.1 hsoft), if_pos hstart]

/-- Settles O49, by the phase: the enables that the write sets first do not change it, so START finds the phase of `s`. -/
theorem startBeginsARunWhenIdle : Obligations.StartBeginsARunWhenIdle := by
  intro s w hstart hsoft
  rw [hostWriteAny_four s rfl, hostWrite_ctrl, writeCtrl_of_start s hstart hsoft]
  exact ⟨fun hidle => start_of_idle hidle, fun hrunning => start_of_running hrunning⟩

end Sys2Proof.Machine
end

section
/-! Encoding and decoding undo each other, and the hint bit V changes no command's meaning (30_encoding.md R140, R143,
R151). -/

-- One theorem after another: many at once exceed the memory that check.sh allows for threads.
set_option Elab.async false

namespace Sys2Proof

/-! ### Every command is built by its own row -/

theorem builtByItsRow (i : Instr) : Laws.RowOfTable.Statement i := by
  cases i with
  | nop => exact Laws.RowOfTable.nop ..
  | halt => exact Laws.RowOfTable.halt ..
  | funpack => exact Laws.RowOfTable.funpack ..
  | fpack => exact Laws.RowOfTable.fpack ..
  | fadd => exact Laws.RowOfTable.fadd ..
  | fsub => exact Laws.RowOfTable.fsub ..
  | fneg => exact Laws.RowOfTable.fneg ..
  | fdbl => exact Laws.RowOfTable.fdbl ..
  | ftrpl => exact Laws.RowOfTable.ftrpl ..
  | fmul => exact Laws.RowOfTable.fmul ..
  | fsqr => exact Laws.RowOfTable.fsqr ..
  | fsqr2 => exact Laws.RowOfTable.fsqr2 ..
  | finv => exact Laws.RowOfTable.finv ..
  | fpow2523 => exact Laws.RowOfTable.fpow2523 ..
  | finvsqrt => exact Laws.RowOfTable.finvsqrt ..
  | fsqrt => exact Laws.RowOfTable.fsqrt ..
  | finvsqrti => exact Laws.RowOfTable.finvsqrti ..
  | fsqrti => exact Laws.RowOfTable.fsqrti ..
  | fiszero => exact Laws.RowOfTable.fiszero ..
  | fisone => exact Laws.RowOfTable.fisone ..
  | fisneg => exact Laws.RowOfTable.fisneg ..
  | fiseq => exact Laws.RowOfTable.fiseq ..
  | fcmov => exact Laws.RowOfTable.fcmov ..
  | fabs => exact Laws.RowOfTable.fabs ..
  | sunpack => exact Laws.RowOfTable.sunpack ..
  | sunpack64 => exact Laws.RowOfTable.sunpack64 ..
  | spack => exact Laws.RowOfTable.spack ..
  | sadd => exact Laws.RowOfTable.sadd ..
  | ssub => exact Laws.RowOfTable.ssub ..
  | sneg => exact Laws.RowOfTable.sneg ..
  | smul => exact Laws.RowOfTable.smul ..
  | ssqr => exact Laws.RowOfTable.ssqr ..
  | sinv => exact Laws.RowOfTable.sinv ..
  | siszero => exact Laws.RowOfTable.siszero ..
  | sisone => exact Laws.RowOfTable.sisone ..
  | seq => exact Laws.RowOfTable.seq ..
  | scmov => exact Laws.RowOfTable.scmov ..
  | gunpack => exact Laws.RowOfTable.gunpack ..
  | gpack => exact Laws.RowOfTable.gpack ..
  | gadd => exact Laws.RowOfTable.gadd ..
  | gdbl => exact Laws.RowOfTable.gdbl ..
  | gneg => exact Laws.RowOfTable.gneg ..
  | gsmul => exact Laws.RowOfTable.gsmul ..
  | gsmulb => exact Laws.RowOfTable.gsmulb ..
  | gmsm => exact Laws.RowOfTable.gmsm ..
  | geq => exact Laws.RowOfTable.geq ..
  | gisneutral => exact Laws.RowOfTable.gisneutral ..
  | gneutral => exact Laws.RowOfTable.gneutral ..
  | gbase => exact Laws.RowOfTable.gbase ..
  | gelligator => exact Laws.RowOfTable.gelligator ..
  | gcmov => exact Laws.RowOfTable.gcmov ..

/-- Settles O1: every command is what its own row builds from its fields, and those are the fields of its word. -/
theorem decodeInvertsEncode : Obligations.DecodeInvertsEncode :=
  fun i => decode_encode_of_row (builtByItsRow i)

/-! ### A row keeps every field it uses -/

/-- The row builds its command from all the fields it uses: the command's fields are the given ones, if those it does not
use are zero. -/
def Row.KeepsFields (r : Row) : Prop :=
  ∀ f : Fields, f.opc = r.opc → unusedZero r.uses f = true → fieldsOfInstr (r.build f) = f

/-- The command a row builds does the same in every state, whatever its hint V. -/
def Row.IgnoresHint (r : Row) : Prop :=
  ∀ (f : Fields) (b : Bool) (s : Machine.State), Machine.exec (r.build { f with v := b }) s = Machine.exec (r.build f) s

theorem keepsFields_of_mem : ∀ r ∈ rows, r.KeepsFields := by
  intro r h
  rintro ⟨opc, v, rd, ra, rb, rc, imm⟩ hopc hzero
  simp only [rows, controlRows, fieldRows, scalarRows, groupRows, List.cons_append, List.nil_append] at h
  fin_cases h <;> simp_all [unusedZero, fieldsOfInstr]

theorem ignoresHint_of_mem : ∀ r ∈ rows, r.IgnoresHint := by
  intro r h f b s
  simp only [rows, controlRows, fieldRows, scalarRows, groupRows, List.cons_append, List.nil_append] at h
  fin_cases h <;> rfl

/-- Settles O2: a legal word's command has the fields of the word, and a word is made of its fields. -/
theorem encodeInvertsDecode : Obligations.EncodeInvertsDecode := by
  intro w i h
  obtain ⟨r, hrow, hzero, rfl⟩ := row_of_decode h
  rw [encode, keepsFields_of_mem r (mem_of_rowOf hrow) _ (opc_of_rowOf hrow).symm hzero, wordOf_fieldsOf]

/-! ### Flipping bit V -/

/-- The XOR of two words, field by field. -/
def Fields.xor (f g : Fields) : Fields :=
  { opc := f.opc ^^^ g.opc, v := f.v ^^ g.v, rd := f.rd ^^^ g.rd, ra := f.ra ^^^ g.ra, rb := f.rb ^^^ g.rb,
    rc := f.rc ^^^ g.rc, imm := f.imm ^^^ g.imm }

theorem finOfNat_xor (a b : Nat) : Fin.ofNat 16 (a ^^^ b) = Fin.ofNat 16 a ^^^ Fin.ofNat 16 b := by
  have hxor : (a ^^^ b) % 2 ^ 4 = a % 2 ^ 4 ^^^ b % 2 ^ 4 := Nat.xor_mod_two_pow
  apply Fin.ext
  show (a ^^^ b) % 2 ^ 4 = (a % 2 ^ 4 ^^^ b % 2 ^ 4) % 2 ^ 4
  rw [← hxor, Nat.mod_mod]

theorem odd_xor (a b : Nat) : ((a ^^^ b) % 2 == 1) = (a % 2 == 1 ^^ b % 2 == 1) := by
  rw [Bool.eq_iff_iff]
  rw [beq_iff_eq, Nat.xor_mod_two_eq_one, Bool.xor_iff_ne, Ne, Bool.eq_iff_iff, beq_iff_eq, beq_iff_eq]

/-- Extracting fields commutes with XOR: each field is a run of bits (30_encoding.md R140). -/
theorem fieldsOf_xor (w m : Word) : fieldsOf (w ^^^ m) = (fieldsOf w).xor (fieldsOf m) := by
  simp only [fieldsOf, Fields.xor, BitVec.toNat_xor, Nat.xor_div_two_pow, BitVec.ofNat_xor, finOfNat_xor, odd_xor]

theorem fieldsOf_flipHint (w : Word) : fieldsOf (w ^^^ 0x01000000) = { fieldsOf w with v := !(fieldsOf w).v } := by
  have hbit : fieldsOf 0x01000000 = { opc := 0, v := true } := by decide
  rw [fieldsOf_xor, hbit]
  simp [Fields.xor]

/-- Settles O5: flipping bit V keeps the opcode and the unused fields, so the word selects the same row, which ignores the
hint. -/
theorem hintBitChangesNothing : Obligations.HintBitChangesNothing := by
  intro w i h
  obtain ⟨r, hrow, hzero, rfl⟩ := row_of_decode h
  exact ⟨_, decode_of_row (fieldsOf_flipHint w) hrow hzero, fun s => ignoresHint_of_mem r (mem_of_rowOf hrow) _ _ s⟩

end Sys2Proof
end

section
/-! What a command can do, said once for all of them: every command but HALT checks its immediate, reads its sources, has
one of nine effects and retires (40_control.md R170, 60_exceptions.md R376, R377). -/

-- One theorem after another: many at once exceed the memory that check.sh allows for threads.
set_option Elab.async false

namespace Sys2Proof.Machine

open Safety

/-! ### Effects -/

/-- What a command does to the state when it passes its checks, before it retires. -/
inductive Effect where
  | idle
  | writeF (i : FReg) (v : Fe)
  | writeFB (i : FReg) (v : Fe) (c : BReg) (x : Bool)
  | drawF (i : FReg) (v : Fe)
  | writeS (i : SReg) (v : Scalar)
  | writeG (i : GReg) (r : PointReg)
  | writeGB (i : GReg) (r : PointReg) (c : BReg) (x : Bool)
  | writeB (i : BReg) (x : Bool)
  | store (slot : BitVec 8) (bytes : List Byte)

namespace Effect

/-- The state after an effect. -/
def apply (s : State) : Effect → State
  | idle => s
  | writeF i v => s.setF i v
  | writeFB i v c x => (s.setF i v).setB c x
  | drawF i v => (s.setF i v).useDraws 1
  | writeS i v => s.setS i v
  | writeG i r => s.setG i r
  | writeGB i r c x => (s.setG i r).setB c x
  | writeB i x => s.setB i x
  | store slot bytes => s.dmemWrite slot bytes

/-- The command names what the effect writes: its destination registers, and the slot of a pack command. -/
def NamedBy (i : Instr) : Effect → Prop
  | idle => True
  | writeF r _ => destF i = some r
  | writeFB r _ c _ => destF i = some r ∧ destB i = some c
  | drawF r _ => destF i = some r
  | writeS r _ => destS i = some r
  | writeG r _ => destG i = some r
  | writeGB r _ c _ => destG i = some r ∧ destB i = some c
  | writeB c _ => destB i = some c
  | store slot bytes => packSlot i = some slot ∧ bytes.length = 32

section
variable (e : Effect) (s : State)

@[simp] theorem apply_pc : (e.apply s).pc = s.pc := by cases e <;> rfl
@[simp] theorem apply_busy : (e.apply s).busy = s.busy := by cases e <;> rfl
@[simp] theorem apply_done : (e.apply s).done = s.done := by cases e <;> rfl
@[simp] theorem apply_err : (e.apply s).err = s.err := by cases e <;> rfl
@[simp] theorem apply_herr : (e.apply s).herr = s.herr := by cases e <;> rfl
@[simp] theorem apply_errcode : (e.apply s).errcode = s.errcode := by cases e <;> rfl
@[simp] theorem apply_ieDone : (e.apply s).ieDone = s.ieDone := by cases e <;> rfl
@[simp] theorem apply_ieErr : (e.apply s).ieErr = s.ieErr := by cases e <;> rfl
@[simp] theorem apply_errpc : (e.apply s).errpc = s.errpc := by cases e <;> rfl
@[simp] theorem apply_errword : (e.apply s).errword = s.errword := by cases e <;> rfl
@[simp] theorem apply_retired : (e.apply s).retired = s.retired := by cases e <;> rfl
@[simp] theorem apply_imem : (e.apply s).imem = s.imem := by cases e <;> rfl
@[simp] theorem apply_powerOn : (e.apply s).powerOn = s.powerOn := by cases e <;> rfl
@[simp] theorem apply_readData : (e.apply s).readData = s.readData := by cases e <;> rfl
@[simp] theorem apply_agenda : (e.apply s).agenda = s.agenda := by cases e <;> rfl

@[simp] theorem apply_imemWord (k : Nat) : (e.apply s).imemWord k = s.imemWord k := by
  rw [State.imemWord, apply_imem, apply_powerOn, State.imemWord]

/-- An effect does not depend on the PC. -/
theorem apply_setPc (q : BitVec 8) : e.apply { s with pc := q } = { e.apply s with pc := q } := by cases e <;> rfl

end

end Effect

/-! ### Source reads -/

namespace Src

/-- A source read followed by a computation on the value read. -/
def map {α β : Type} (f : α → β) : Src α → Src β
  | .unwritten => .unwritten
  | .poison => .poison
  | .value a => .value (f a)

variable {α β : Type} {f : α → β} {x : Src α}

theorem map_eq_unwritten : x.map f = .unwritten ↔ x = .unwritten := by cases x <;> simp [map]

theorem map_eq_poison : x.map f = .poison ↔ x = .poison := by cases x <;> simp [map]

theorem map_eq_value {b : β} : x.map f = .value b ↔ ∃ a, x = .value a ∧ f a = b := by cases x <;> simp [map]

end Src

/-- `x` is the outcome of reading the sources `l`: UNINIT of any of them comes before POISON of any of them
(60_exceptions.md R376). -/
structure Reads {α : Type} (s : State) (l : List Source) (x : Src α) : Prop where
  unwritten_iff : x = .unwritten ↔ ∃ r ∈ l, unwritten s r = true
  poison_iff : x = .poison ↔ (∀ r ∈ l, unwritten s r = false) ∧ ∃ r ∈ l, poisoned s r = true

section
variable {α β : Type} {s : State}

theorem Reads.none (a : α) : Reads s [] (.value a) := ⟨by simp, by simp⟩

theorem Reads.f (i : FReg) : Reads s [.f i] (s.readF i) := by
  constructor <;> simp only [State.readF, unwritten, poisoned, List.mem_singleton, exists_eq_left, forall_eq] <;>
    cases s.f[i] <;> simp [Src.ofOption]

theorem Reads.sc (i : SReg) : Reads s [.s i] (s.readS i) := by
  constructor <;> simp only [State.readS, unwritten, poisoned, List.mem_singleton, exists_eq_left, forall_eq] <;>
    cases s.sc[i] <;> simp [Src.ofOption]

theorem Reads.g (i : GReg) : Reads s [.g i] (s.readG i) := by
  constructor <;> simp only [State.readG, unwritten, poisoned, List.mem_singleton, exists_eq_left, forall_eq] <;>
    cases s.g[i] <;> simp [Src.ofPoint]

theorem Reads.both {l m : List Source} {x : Src α} {y : Src β} (hx : Reads s l x) (hy : Reads s m y) :
    Reads s (l ++ m) (x.both y) := by
  have unwritten_none {l : List Source} : (∀ r ∈ l, unwritten s r = false) ↔ ¬∃ r ∈ l, unwritten s r = true := by simp
  constructor
  · rw [both_eq_unwritten, hx.unwritten_iff, hy.unwritten_iff]
    simp only [List.mem_append, or_and_right, exists_or]
  · rw [both_eq_poison, Ne, Ne, hx.poison_iff, hy.poison_iff, hx.unwritten_iff, hy.unwritten_iff, ← unwritten_none,
      ← unwritten_none]
    simp only [List.mem_append, or_imp, forall_and, or_and_right, exists_or]
    constructor
    · rintro ⟨hl, hm, ⟨-, hp⟩ | ⟨-, hp⟩⟩
      exacts [⟨⟨hl, hm⟩, .inl hp⟩, ⟨⟨hl, hm⟩, .inr hp⟩]
    · rintro ⟨⟨hl, hm⟩, hp | hp⟩
      exacts [⟨hl, hm, .inl ⟨hl, hp⟩⟩, ⟨hl, hm, .inr ⟨hm, hp⟩⟩]

theorem Reads.map {l : List Source} {x : Src α} (hx : Reads s l x) (f : α → β) : Reads s l (x.map f) :=
  ⟨Src.map_eq_unwritten.trans hx.unwritten_iff, Src.map_eq_poison.trans hx.poison_iff⟩

theorem readTerms_succ (s : State) (a b n : Nat) :
    s.readTerms a b (n + 1) = (((s.readG (Fin.ofNat 16 a)).both (s.readS (Fin.ofNat 16 b))).both
      (s.readTerms (a + 1) (b + 1) n)).map fun p => p.1 :: p.2 := by
  rw [State.readTerms]
  cases ((s.readG (Fin.ofNat 16 a)).both (s.readS (Fin.ofNat 16 b))).both (s.readTerms (a + 1) (b + 1) n) <;> rfl

theorem Reads.terms (a b n : Nat) : Reads s (gmsmSources a b n) (s.readTerms a b n) := by
  induction n generalizing a b with
  | zero => exact Reads.none []
  | succ n ih =>
    rw [readTerms_succ]
    exact (((Reads.g _).both (Reads.sc _)).both (ih (a + 1) (b + 1))).map _

theorem readTerms_setPc (s : State) (q : BitVec 8) (a b n : Nat) :
    { s with pc := q }.readTerms a b n = s.readTerms a b n := by
  induction n generalizing a b with
  | zero => rfl
  | succ n ih =>
    rw [readTerms_succ, readTerms_succ, ih]
    rfl

end

theorem dmemRead_setPc (s : State) (q : BitVec 8) (slot : BitVec 8) (k : Nat) :
    { s with pc := q }.dmemRead slot k = s.dmemRead slot k :=
  dmemBytes_congr fun _ _ => rfl

/-! ### Immediates -/

theorem slotInRange_eq (slot : BitVec 8) : slotInRange slot = wfSlot slot :=
  decide_eq_decide.2 Nat.lt_succ_iff

theorem slotPairInRange_eq (slot : BitVec 8) : slotPairInRange slot = wfSlotPair slot :=
  decide_eq_decide.2 (Nat.succ_lt_succ_iff.trans Nat.lt_succ_iff)

/-- A pack command whose immediate names what exists names an existing slot. -/
theorem packSlot_le_of_wellFormed {i : Instr} {slot : BitVec 8} (hwf : wellFormed i = true) (h : packSlot i = some slot) :
    slot.toNat ≤ 63 := by
  cases i <;> simp_all [packSlot, wellFormed, wfSlot]

/-! ### Every command's plan -/

/-- `p` is what the command `i` comes to at `s` once its immediate is in range: the error its sources raise, or its effect,
which writes only what the command names.  It does not depend on the PC. -/
structure Plan (i : Instr) (s : State) (p : Src Effect) : Prop where
  reads : Reads s (sources i) p
  named : ∀ e, p = .value e → e.NamedBy i
  exec_setPc : ∀ q, exec i { s with pc := q } = checkRange (wellFormed i) { s with pc := q }
    (withSources p { s with pc := q } fun e => e.apply { s with pc := q })

/-- The command has a plan. -/
def HasPlan (i : Instr) (s : State) : Prop := ∃ p, Plan i s p

/-- The plan of a command that computes its effect `f` from the values read. -/
theorem HasPlan.of_reads {α : Type} {i : Instr} {s : State} {x : Src α} (hx : Reads s (sources i) x) (f : α → Effect)
    (hf : ∀ a, (f a).NamedBy i := by intros; rfl)
    (hexec : ∀ q, exec i { s with pc := q } = checkRange (wellFormed i) { s with pc := q }
      (withSources x { s with pc := q } fun a => (f a).apply { s with pc := q }) := by intros; rfl) : HasPlan i s := by
  refine ⟨x.map f, hx.map f, fun e he => ?_, fun q => ?_⟩
  · obtain ⟨a, -, rfl⟩ := Src.map_eq_value.1 he
    exact hf a
  · rw [hexec]
    cases x <;> rfl

/-- The plan of a command with no source. -/
theorem HasPlan.of_effect {i : Instr} {s : State} (e : Effect) (hi : sources i = []) (he : e.NamedBy i)
    (hexec : ∀ q, exec i { s with pc := q } = checkRange (wellFormed i) { s with pc := q }
      (complete (e.apply { s with pc := q })) := by intros; rfl) : HasPlan i s :=
  HasPlan.of_reads (x := .value ()) (hi ▸ Reads.none ()) (fun _ => e) (fun _ => he) hexec

section
variable (s : State)

theorem plan_funpack (v : Bool) (rd : FReg) (slot : BitVec 8) : HasPlan (.funpack v rd slot) s :=
  HasPlan.of_effect (.writeF rd (feUnpack (s.dmemRead slot 1))) rfl rfl fun q => by
    show execFunpack v rd slot _ = _
    rw [execFunpack, slotInRange_eq, dmemRead_setPc]
    rfl

theorem plan_fpack (v : Bool) (ra : FReg) (slot : BitVec 8) : HasPlan (.fpack v ra slot) s :=
  HasPlan.of_reads (Reads.f ra) (fun a => .store slot (fePack a)) (fun a => ⟨rfl, length_fePack a⟩) fun q => by
    show execFpack v ra slot _ = _
    rw [execFpack, slotInRange_eq]
    rfl

theorem plan_sunpack (v : Bool) (rd : SReg) (slot : BitVec 8) : HasPlan (.sunpack v rd slot) s :=
  HasPlan.of_effect (.writeS rd (scUnpack (s.dmemRead slot 1))) rfl rfl fun q => by
    show execSunpack v rd slot _ = _
    rw [execSunpack, slotInRange_eq, dmemRead_setPc]
    rfl

theorem plan_sunpack64 (v : Bool) (rd : SReg) (slot : BitVec 8) : HasPlan (.sunpack64 v rd slot) s :=
  HasPlan.of_effect (.writeS rd (scReduce (s.dmemRead slot 2))) rfl rfl fun q => by
    show execSunpack64 v rd slot _ = _
    rw [execSunpack64, slotPairInRange_eq, dmemRead_setPc]
    rfl

theorem plan_spack (v : Bool) (ra : SReg) (slot : BitVec 8) : HasPlan (.spack v ra slot) s :=
  HasPlan.of_reads (Reads.sc ra) (fun a => .store slot (scPack a)) (fun _ => ⟨rfl, length_leBytes _ _⟩) fun q => by
    show execSpack v ra slot _ = _
    rw [execSpack, slotInRange_eq]
    rfl

theorem plan_gunpack (v : Bool) (rd : GReg) (rc : BReg) (slot : BitVec 8) : HasPlan (.gunpack v rd rc slot) s :=
  HasPlan.of_effect (.writeGB rd (decodedReg (ristrettoDecode (s.dmemRead slot 1))) rc
      (ristrettoDecode (s.dmemRead slot 1)).isSome) rfl ⟨rfl, rfl⟩ fun q => by
    show execGunpack v rd rc slot _ = _
    rw [execGunpack, slotInRange_eq, dmemRead_setPc]
    rfl

theorem plan_gpack (v : Bool) (ra : GReg) (slot : BitVec 8) : HasPlan (.gpack v ra slot) s :=
  HasPlan.of_reads (Reads.g ra) (fun P => .store slot (ristrettoEncode P)) (fun _ => ⟨rfl, length_leBytes _ _⟩) fun q => by
    show execGpack v ra slot _ = _
    rw [execGpack, slotInRange_eq]
    rfl

theorem plan_gmsm (v : Bool) (rd ra : GReg) (rb : SReg) (n : BitVec 8) : HasPlan (.gmsm v rd ra rb n) s :=
  HasPlan.of_reads (Reads.terms ra rb n.toNat) (fun ts => .writeG rd (.point (ptMulSum ts))) (fun _ => rfl) fun q => by
    show execGmsm v rd ra rb n _ = _
    rw [execGmsm, readTerms_setPc]
    rfl

/-- Every command but HALT has a plan: its sources, read as its meaning reads them, and its effect on their values. -/
theorem hasPlan {i : Instr} (hi : isHalt i = false) : HasPlan i s := by
  cases i with
  | nop v => exact .of_effect .idle rfl trivial
  | halt v => cases hi
  | funpack v rd slot => exact plan_funpack s v rd slot
  | fpack v ra slot => exact plan_fpack s v ra slot
  | fadd v rd ra rb => exact .of_reads ((Reads.f ra).both (.f rb)) (fun p => .writeF rd (p.1 + p.2))
  | fsub v rd ra rb => exact .of_reads ((Reads.f ra).both (.f rb)) (fun p => .writeF rd (p.1 - p.2))
  | fneg v rd ra => exact .of_reads (.f ra) (fun a => .writeF rd (-a))
  | fdbl v rd ra => exact .of_reads (.f ra) (fun a => .writeF rd (a + a))
  | ftrpl v rd ra => exact .of_reads (.f ra) (fun a => .writeF rd (a + a + a))
  | fmul v rd ra rb => exact .of_reads ((Reads.f ra).both (.f rb)) (fun p => .writeF rd (p.1 * p.2))
  | fsqr v rd ra => exact .of_reads (.f ra) (fun a => .writeF rd (a * a))
  | fsqr2 v rd ra => exact .of_reads (.f ra) (fun a => .writeF rd (a * a + a * a))
  | finv v rd ra => exact .of_reads (.f ra) (fun a => .writeF rd (feInv a))
  | fpow2523 v rd ra => exact .of_reads (.f ra) (fun a => .writeF rd (fePow a (2 ^ 252 - 3)))
  | finvsqrt v rd ra => exact .of_reads (.f ra) (fun a => .drawF rd (invSqrtDraw s.draws a))
  | fsqrt v rd ra => exact .of_reads (.f ra) (fun a => .drawF rd (invSqrtDraw s.draws a * a))
  | finvsqrti v rd ra rc =>
    exact .of_reads (.f ra) (fun a => .writeFB rd (sqrtRatioM1 1 a).2 rc (sqrtRatioM1 1 a).1) (fun _ => ⟨rfl, rfl⟩)
  | fsqrti v rd ra rc =>
    exact .of_reads (.f ra) (fun a => .writeFB rd ((sqrtRatioM1 1 a).2 * a) rc (sqrtRatioM1 1 a).1) (fun _ => ⟨rfl, rfl⟩)
  | fiszero v rd ra => exact .of_reads (.f ra) (fun a => .writeB rd (feIsZero a))
  | fisone v rd ra => exact .of_reads (.f ra) (fun a => .writeB rd (feIsOne a))
  | fisneg v rd ra => exact .of_reads (.f ra) (fun a => .writeB rd (isNegative a))
  | fiseq v rd ra rb => exact .of_reads ((Reads.f ra).both (.f rb)) (fun p => .writeB rd (feIsEq p.1 p.2))
  | fcmov v rd ra rc =>
    exact .of_reads ((Reads.f rd).both (.f ra)) (fun p => .writeF rd (ctSelect (s.getB rc) p.2 p.1))
  | fabs v rd ra => exact .of_reads (.f ra) (fun a => .writeF rd (feAbs a))
  | sunpack v rd slot => exact plan_sunpack s v rd slot
  | sunpack64 v rd slot => exact plan_sunpack64 s v rd slot
  | spack v ra slot => exact plan_spack s v ra slot
  | sadd v rd ra rb => exact .of_reads ((Reads.sc ra).both (.sc rb)) (fun p => .writeS rd (p.1 + p.2))
  | ssub v rd ra rb => exact .of_reads ((Reads.sc ra).both (.sc rb)) (fun p => .writeS rd (p.1 - p.2))
  | sneg v rd ra => exact .of_reads (.sc ra) (fun a => .writeS rd (-a))
  | smul v rd ra rb => exact .of_reads ((Reads.sc ra).both (.sc rb)) (fun p => .writeS rd (p.1 * p.2))
  | ssqr v rd ra => exact .of_reads (.sc ra) (fun a => .writeS rd (a * a))
  | sinv v rd ra => exact .of_reads (.sc ra) (fun a => .writeS rd (scInv a))
  | siszero v rd ra => exact .of_reads (.sc ra) (fun a => .writeB rd (scIsZero a))
  | sisone v rd ra => exact .of_reads (.sc ra) (fun a => .writeB rd (scIsOne a))
  | seq v rd ra rb => exact .of_reads ((Reads.sc ra).both (.sc rb)) (fun p => .writeB rd (scIsEq p.1 p.2))
  | scmov v rd ra rc =>
    exact .of_reads ((Reads.sc rd).both (.sc ra)) (fun p => .writeS rd (ctSelect (s.getB rc) p.2 p.1))
  | gunpack v rd rc slot => exact plan_gunpack s v rd rc slot
  | gpack v ra slot => exact plan_gpack s v ra slot
  | gadd v rd ra rb => exact .of_reads ((Reads.g ra).both (.g rb)) (fun p => .writeG rd (.point (ptAdd p.1 p.2)))
  | gdbl v rd ra => exact .of_reads (.g ra) (fun P => .writeG rd (.point (ptDbl P)))
  | gneg v rd ra => exact .of_reads (.g ra) (fun P => .writeG rd (.point (ptNeg P)))
  | gsmul v rd ra rb => exact .of_reads ((Reads.g ra).both (.sc rb)) (fun p => .writeG rd (.point (ptMul p.2.val p.1)))
  | gsmulb v rd rb => exact .of_reads (.sc rb) (fun k => .writeG rd (.point (ptMul k.val basePoint)))
  | gmsm v rd ra rb n => exact plan_gmsm s v rd ra rb n
  | geq v rd ra rb => exact .of_reads ((Reads.g ra).both (.g rb)) (fun p => .writeB rd (ptGeq p.1 p.2))
  | gisneutral v rd ra => exact .of_reads (.g ra) (fun P => .writeB rd (ptIsNeutral P))
  | gneutral v rd => exact .of_effect (.writeG rd (.point neutral)) rfl rfl
  | gbase v rd => exact .of_effect (.writeG rd (.point basePoint)) rfl rfl
  | gelligator v rd ra => exact .of_reads (.f ra) (fun t => .writeG rd (.point (elligator t)))
  | gcmov v rd ra rc =>
    exact .of_reads ((Reads.g rd).both (.g ra)) (fun p => .writeG rd (.point (ctSelect (s.getB rc) p.2 p.1)))

end

/-! ### The outcomes of a command -/

/-- The plan at the PC it was made at. -/
theorem Plan.exec_eq {i : Instr} {s : State} {p : Src Effect} (h : Plan i s p) :
    exec i s = checkRange (wellFormed i) s (withSources p s fun e => e.apply s) :=
  h.exec_setPc s.pc

theorem exec_of_isHalt {i : Instr} (h : isHalt i = true) (s : State) : exec i s = .next s.retireHalt := by
  cases i <;> cases h
  rfl

/-- The errors a command can raise before it has an effect (60_exceptions.md R376). -/
def Precise (e : EngineError) : Prop := e = .range ∨ e = .uninit ∨ e = .poison

/-- All that a command can do: stop precisely, end the run, or have an effect that it names and retire. -/
theorem exec_cases (i : Instr) (s : State) :
    (∃ e, Precise e ∧ exec i s = .next (s.errorStop e)) ∨ (isHalt i = true ∧ exec i s = .next s.retireHalt) ∨
      ∃ e : Effect, isHalt i = false ∧ wellFormed i = true ∧ e.NamedBy i ∧ exec i s = .next (e.apply s).retire := by
  cases hhalt : isHalt i with
  | true => exact .inr (.inl ⟨rfl, exec_of_isHalt hhalt s⟩)
  | false =>
    obtain ⟨p, hp⟩ := hasPlan s hhalt
    rw [hp.exec_eq]
    obtain ⟨-, hrange⟩ | ⟨hwf, hgo⟩ := checkRange_cases (wellFormed i) s (withSources p s fun e => e.apply s)
    · exact .inl ⟨_, .inl rfl, hrange⟩
    · rw [hgo]
      obtain ⟨-, h⟩ | ⟨-, h⟩ | ⟨e, he, h⟩ := withSources_cases p s fun e => e.apply s
      · exact .inl ⟨_, .inr (.inl rfl), h⟩
      · exact .inl ⟨_, .inr (.inr rfl), h⟩
      · exact .inr (.inr ⟨e, rfl, hwf, hp.named e he, h⟩)

/-- The same of the next state a command answers. -/
theorem next_cases {i : Instr} {s t : State} (h : exec i s = .next t) :
    (∃ e, Precise e ∧ t = s.errorStop e) ∨ (isHalt i = true ∧ t = s.retireHalt) ∨
      ∃ e : Effect, isHalt i = false ∧ wellFormed i = true ∧ e.NamedBy i ∧ t = (e.apply s).retire := by
  obtain ⟨e, he, h'⟩ | ⟨hi, h'⟩ | ⟨e, hi, hwf, hn, h'⟩ := exec_cases i s <;> rw [h'] at h <;> cases h
  · exact .inl ⟨e, he, rfl⟩
  · exact .inr (.inl ⟨hi, rfl⟩)
  · exact .inr (.inr ⟨e, hi, hwf, hn, rfl⟩)

end Sys2Proof.Machine
end

section
/-! What no command changes, and that a command stops precisely or retires (10_state.md R42 to R46, R72, R73,
40_control.md R170 to R176, 60_exceptions.md R374 to R378). -/

-- One theorem after another: many at once exceed the memory that check.sh allows for threads.
set_option Elab.async false

namespace Sys2Proof.Machine

open Safety

/-! ### What an effect leaves unchanged -/

/-- A write of one register leaves every other register of its file. -/
theorem getElem_set_of_dest_ne {α : Type} {file : Vector α 16} {dest : Option (Fin 16)} {i j : Fin 16} {x : α}
    (hi : dest = some i) (hj : dest ≠ some j) : (file.set i x)[j] = file[j] :=
  (wrote_set file i x).2 j fun h => hj (h ▸ hi)

section
variable {i : Instr} {e : Effect} (s : State) (h : e.NamedBy i)
include h

theorem Effect.apply_f_of_dest_ne {j : FReg} (hj : destF i ≠ some j) : (e.apply s).f[j] = s.f[j] := by
  cases e with
  | writeF | drawF => exact getElem_set_of_dest_ne h hj
  | writeFB => exact getElem_set_of_dest_ne h.1 hj
  | _ => rfl

theorem Effect.apply_sc_of_dest_ne {j : SReg} (hj : destS i ≠ some j) : (e.apply s).sc[j] = s.sc[j] := by
  cases e with
  | writeS => exact getElem_set_of_dest_ne h hj
  | _ => rfl

theorem Effect.apply_g_of_dest_ne {j : GReg} (hj : destG i ≠ some j) : (e.apply s).g[j] = s.g[j] := by
  cases e with
  | writeG => exact getElem_set_of_dest_ne h hj
  | writeGB => exact getElem_set_of_dest_ne h.1 hj
  | _ => rfl

theorem Effect.apply_b_of_dest_ne {j : BReg} (hj : destB i ≠ some j) : (e.apply s).b[j] = s.b[j] := by
  cases e with
  | writeB => exact getElem_set_of_dest_ne h hj
  | writeFB | writeGB => exact getElem_set_of_dest_ne h.2 hj
  | _ => rfl

/-- An effect changes no byte outside the slot that a pack command names. -/
theorem Effect.apply_dmemByte_of_outside {a : Nat}
    (ha : ∀ slot, packSlot i = some slot → a < 32 * slot.toNat ∨ 32 * slot.toNat + 32 ≤ a) :
    (e.apply s).dmemByte a = s.dmemByte a := by
  cases e with
  | store slot bytes =>
    obtain ⟨hslot, hlen⟩ := h
    have hbase : slotBase slot = 32 * slot.toNat := rfl
    have houtside := ha slot hslot
    exact (dmemByte_dmemWrite s slot bytes a).trans (dif_neg (by omega))
  | _ => rfl

end

/-! ### Frames -/

/-- Settles O19: no outcome of a command writes IMEM. -/
theorem noCommandWritesImem : Obligations.NoCommandWritesImem := by
  intro i s t h
  obtain ⟨e, -, rfl⟩ | ⟨-, rfl⟩ | ⟨e, -, -, -, rfl⟩ := next_cases h <;> simp

/-- Settles O20: only the effect of a pack command stores to DMEM. -/
theorem dmemChangesOnlyInThePackedSlot : Obligations.DmemChangesOnlyInThePackedSlot := by
  intro i s t a h ha
  obtain ⟨e, -, rfl⟩ | ⟨-, rfl⟩ | ⟨e, -, -, hnamed, rfl⟩ := next_cases h
  · exact errorStop_dmemByte s e a
  · exact retireHalt_dmemByte s a
  · rw [retire_dmemByte, e.apply_dmemByte_of_outside s hnamed ha]

/-- Settles O21: only an effect writes registers, and only those the command names. -/
theorem registersChangeOnlyAsDestinations : Obligations.RegistersChangeOnlyAsDestinations := by
  intro i s t h
  obtain ⟨e, -, rfl⟩ | ⟨-, rfl⟩ | ⟨e, -, -, hnamed, rfl⟩ := next_cases h
  · simp
  · simp
  · simp only [retire_f, retire_sc, retire_g, retire_b]
    exact ⟨fun _ hj => e.apply_f_of_dest_ne s hnamed hj, fun _ hj => e.apply_sc_of_dest_ne s hnamed hj,
      fun _ hj => e.apply_g_of_dest_ne s hnamed hj, fun _ hj => e.apply_b_of_dest_ne s hnamed hj⟩

/-- Settles O22: an error stop and an effect leave the shell, and HALT touches DONE only. -/
theorem commandsLeaveTheShellAlone : Obligations.CommandsLeaveTheShellAlone := by
  intro i s t h
  obtain ⟨e, -, rfl⟩ | ⟨hhalt, rfl⟩ | ⟨e, -, -, -, rfl⟩ := next_cases h
  · simp
  · simp [hhalt]
  · simp

/-! ### Stopping precisely or retiring -/

/-- Retirement after an effect is retirement from the state before it: an effect moves neither the PC nor the status. -/
theorem Effect.retired_apply (e : Effect) (s : State) : Retired s (e.apply s).retire := by
  have h := retired_retire (e.apply s)
  simp only [Retired, apply_retired, apply_pc, apply_busy, apply_err, apply_errcode, apply_errpc, apply_errword,
    apply_imemWord] at h
  exact h

/-- Settles O9: the outcomes of `exec_cases`, each in the words of the statement. -/
theorem everyCommandStopsPreciselyOrRetires : Obligations.EveryCommandStopsPreciselyOrRetires := by
  intro i s
  obtain ⟨e, he, h⟩ | ⟨hhalt, h⟩ | ⟨e, hhalt, -, -, h⟩ := exec_cases i s
  · refine ⟨_, h, .inl ?_⟩
    obtain rfl | rfl | rfl := he
    exacts [.inl rfl, .inr (.inl rfl), .inr (.inr rfl)]
  · exact ⟨_, h, .inr (.inl ⟨hhalt, rfl⟩)⟩
  · exact ⟨_, h, .inr (.inr ⟨hhalt, e.retired_apply s⟩)⟩

/-- Settles O12: NOP is a bare retirement, HALT the end of a run. -/
theorem nopAndHaltComplete : Obligations.NopAndHaltComplete := by
  intro v s
  refine ⟨⟨s.retire, rfl, ?_⟩, rfl⟩
  exact ⟨by simp, by simp, by simp, by simp, by simp, by simp [SameMemory], sameShell_retire s, retired_retire s⟩

/-! ### PCOVF -/

theorem add_one_ne_self (x : BitVec 32) : x ≠ x + 1 := by
  bv_omega

/-- The effect of a command that retires is that at any other PC. -/
theorem effect_of_retired_setPc {i : Instr} {s u : State} {q : BitVec 8} (hhalt : isHalt i = false)
    (h : exec i { s with pc := q } = .next u) (hret : u.retired = s.retired + 1) :
    ∃ e : Effect, exec i s = .next (e.apply s).retire ∧ u = { e.apply s with pc := q }.retire := by
  obtain ⟨p, hp⟩ := hasPlan s hhalt
  rw [hp.exec_setPc] at h
  rw [hp.exec_eq]
  cases hwf : wellFormed i with
  | false =>
    rw [hwf, checkRange_false] at h
    cases h
    exact absurd hret (add_one_ne_self _)
  | true =>
    rw [hwf, checkRange_true] at h
    rw [checkRange_true]
    cases p with
    | value e =>
      rw [withSources_value, e.apply_setPc] at h
      cases h
      exact ⟨e, rfl, rfl⟩
    | _ =>
      cases h
      exact absurd hret (add_one_ne_self _)

/-- Settles O11: the plan of a command does not depend on the PC, and only retirement at 255 raises PCOVF. -/
theorem pcovfStopsAfterTheFullEffect : Obligations.PcovfStopsAfterTheFullEffect := by
  refine ⟨fun i s t u q hhalt hpc hq ht hu hret => ?full, fun i s t hcase ht hret => ?other⟩
  case full =>
    obtain ⟨e, he, rfl⟩ := effect_of_retired_setPc hhalt hu hret
    rw [he] at ht
    cases ht
    simp [retire_of_eq (s := e.apply s) (by simpa using hpc), hpc]
  case other =>
    obtain ⟨e, -, rfl⟩ | ⟨-, rfl⟩ | ⟨e, hhalt, -, -, rfl⟩ := next_cases ht
    · exact absurd hret (add_one_ne_self _)
    · exact ⟨rfl, rfl, rfl, rfl⟩
    · have hpc : s.pc ≠ 255 := hcase.resolve_left (by simp [hhalt])
      simp [retire_of_ne (s := e.apply s) (by simpa using hpc)]

end Sys2Proof.Machine
end

section
/-! The window in either phase: accesses that are no aligned words, reads and writes while Running, the bits of the words
read, and the two resets (10_state.md R61 to R71, R74, 20_memory.md R106, R107, R109, 70_reset_and_hazards.md R410 to
R412). -/

-- One theorem after another: many at once exceed the memory that check.sh allows for threads.
set_option Elab.async false

namespace Sys2Proof.Machine

/-! ### Accesses that are no aligned words -/

theorem aligned_eq_false {off bytes : Nat} (h : bytes ≠ 4 ∨ off % 4 ≠ 0) : aligned off bytes = false := by
  obtain h | h := h <;> simp [aligned, h]

theorem returningDraw_full (s : State) :
    s.returningDraw 32 = { s with readData := Config.draw 32 s.draws, draws := s.draws + 1 } := by
  rw [State.returningDraw, BitVec.setWidth_eq]
  rfl

/-- Settles O53: such a read returns a full draw, such a write nothing, and both set HERR. -/
theorem misalignedAccessesOnlySetHerr : Obligations.MisalignedAccessesOnlySetHerr := by
  intro s off bytes w h
  rw [State.hostWriteAny, State.hostReadAny, aligned_eq_false h, returningDraw_full]
  exact ⟨rfl, rfl⟩

/-! ### Host reads, by offset -/

@[simp] theorem hostRead_id (s : State) : s.hostRead 0x000 = s.returning Config.idValue := rfl

@[simp] theorem hostRead_ctrl (s : State) : s.hostRead 0x004 = s.returning s.ctrlWord := rfl

@[simp] theorem hostRead_status (s : State) : s.hostRead 0x008 = s.returning s.statusWord := rfl

@[simp] theorem hostRead_errword (s : State) : s.hostRead 0x014 = s.returning s.errword := rfl

@[simp] theorem hostRead_fsvalid (s : State) :
    s.hostRead 0x01C = if s.busy then s.returningDraw 32 else s.returning s.fsvalidWord := rfl

@[simp] theorem hostRead_gvalid (s : State) :
    s.hostRead 0x020 = if s.busy then s.returningDraw 32 else s.returning s.gvalidWord := rfl

@[simp] theorem hostRead_retired (s : State) : s.hostRead 0x024 = s.returning s.retired := rfl

/-- While Running a read of either memory returns a draw and sets HERR (20_memory.md R107). -/
theorem hostRead_memory_of_running {s : State} (hrunning : s.busy = true) {off : Nat} (h : 0x400 ≤ off) :
    s.hostRead off = { s.returningDraw 32 with herr := true } := by
  simp (disch := omega) only [State.hostRead, if_neg, hrunning, if_true, ite_self]

/-- All that a read in the form of an aligned word can do: return a word, or, while Running only, a draw, with or without
HERR. -/
def ReadOutcome (s t : State) : Prop :=
  (∃ w, t = s.returning w) ∨
    (s.busy = true ∧ ∃ n, t = s.returningDraw n ∨ t = { s.returningDraw n with herr := true })

namespace ReadOutcome

variable {s t u : State}

theorem ite {c : Prop} [Decidable c] (ht : ReadOutcome s t) (hu : ReadOutcome s u) :
    ReadOutcome s (if c then t else u) := by
  split
  · exact ht
  · exact hu

theorem word (w : Word) : ReadOutcome s (s.returning w) := .inl ⟨w, rfl⟩

/-- A register that returns a draw while Running. -/
theorem register (n : Nat) (w : Word) : ReadOutcome s (if s.busy then s.returningDraw n else s.returning w) := by
  split
  · exact .inr ⟨‹_›, n, .inl rfl⟩
  · exact word w

theorem memory (w : Word) :
    ReadOutcome s (if s.busy then { s.returningDraw 32 with herr := true } else s.returning w) := by
  split
  · exact .inr ⟨‹_›, 32, .inr rfl⟩
  · exact word w

end ReadOutcome

theorem hostRead_outcome (s : State) (off : Nat) : ReadOutcome s (s.hostRead off) := by
  unfold State.hostRead
  exact .ite (.word _) <| .ite (.word _) <| .ite (.word _) <| .ite (.word _) <| .ite (.word _) <| .ite (.word _) <|
    .ite (.register _ _) <| .ite (.register _ _) <| .ite (.register _ _) <| .ite (.word _) <| .ite (.word _) <|
    .ite (.memory _) (.memory _)

/-- Settles O58: what any read can do, form by form. -/
theorem hostReadsHaveNoSideEffect : Obligations.HostReadsHaveNoSideEffect := by
  intro s off bytes
  cases ha : aligned off bytes with
  | false =>
    rw [State.hostReadAny, ha]
    exact ⟨true, _, _, rfl, fun _ => rfl, fun _ h => by cases h⟩
  | true =>
    rw [State.hostReadAny, if_pos ha]
    obtain ⟨w, h⟩ | ⟨hbusy, n, h | h⟩ := hostRead_outcome s off <;> rw [h]
    · exact ⟨s.herr, s.draws, w, rfl, id, fun _ _ => ⟨rfl, rfl⟩⟩
    · exact ⟨s.herr, _, _, rfl, id, fun hidle => by simp [hbusy] at hidle⟩
    · exact ⟨true, _, _, rfl, fun _ => rfl, fun hidle => by simp [hbusy] at hidle⟩

/-! ### While Running -/

theorem idleWrite_of_running {s : State} (h : s.busy = true) (t : State) : s.idleWrite t = { s with herr := true } := by
  rw [State.idleWrite, if_pos h]

/-- While Running a write to PC, BREG or either memory only sets HERR (20_memory.md R107). -/
theorem hostWrite_of_running {s : State} (hrunning : s.busy = true) (w : Word) {off : Nat}
    (h : off = 0x00C ∨ off = 0x018 ∨ 0x400 ≤ off) : s.hostWrite off w = { s with herr := true } := by
  obtain rfl | rfl | h := h
  · exact idleWrite_of_running hrunning _
  · exact idleWrite_of_running hrunning _
  · simp (disch := omega) only [State.hostWrite, if_neg, idleWrite_of_running hrunning, ite_self]

/-- Settles O52: each access by the lemma on its offset. -/
theorem windowWhileRunning : Obligations.WindowWhileRunning := by
  intro s off h4 hoff
  simp only [hostReadAny_four s h4, hostWriteAny_four s h4]
  refine ⟨fun hrunning => ⟨fun w hw => hostWrite_of_running hrunning w hw, fun hmem => ?mem, ?breg, ?valid⟩, ?_, ?_, ?_, ?_,
    ?_, ?_, ?_⟩
  case mem => rw [hostRead_memory_of_running hrunning hmem, returningDraw_full]
  case breg =>
    rintro rfl
    rw [hostRead_breg, if_pos hrunning]
    rfl
  case valid =>
    rintro (rfl | rfl)
    · rw [hostRead_fsvalid, if_pos hrunning, returningDraw_full]
    · rw [hostRead_gvalid, if_pos hrunning, returningDraw_full]
  all_goals
    rintro rfl
    rfl

/-! ### The fields of STATUS and CTRL -/

/-- The low byte of STATUS is its four flags. -/
theorem statusWord_getLsbD_flags (s : State) {k : Nat} (hk : k < 8) :
    s.statusWord.getLsbD k = [s.busy, s.done, s.err, s.herr].getD k false := by
  have hflags : s.busy.toNat + 2 * s.done.toNat + 4 * s.err.toNat + 8 * s.herr.toNat =
      bitsToNat [s.busy, s.done, s.err, s.herr] := by
    simp only [bitsToNat]
    ring
  have hlt : bitsToNat [s.busy, s.done, s.err, s.herr] < 2 ^ 8 := (bitsToNat_lt _).trans (show 2 ^ 4 < 2 ^ 8 by decide)
  rw [statusWord_eq, hflags, BitVec.getLsbD_ofNat, Nat.testBit_two_pow_mul_add _ hlt, if_pos hk, testBit_bitsToNat]
  simp [hk.trans (by decide : 8 < 32)]

theorem testBit_toNat_zero (b : Bool) : b.toNat.testBit 0 = b := by
  cases b <;> rfl

/-- From bit 8 on STATUS holds ERRCODE and, above it, IRQ. -/
theorem statusWord_getLsbD_high (s : State) {k : Nat} (hk : k < 24) :
    s.statusWord.getLsbD (8 + k) = if k < 8 then s.errcode.getLsbD k else s.irq.toNat.testBit (k - 8) := by
  have hlt : s.busy.toNat + 2 * s.done.toNat + 4 * s.err.toNat + 8 * s.herr.toNat < 2 ^ 8 := by
    have hbusy := s.busy.toNat_lt
    have hdone := s.done.toNat_lt
    have herr := s.err.toNat_lt
    have hherr := s.herr.toNat_lt
    omega
  rw [statusWord_eq, BitVec.getLsbD_ofNat, Nat.testBit_two_pow_mul_add _ hlt, if_neg (by omega), Nat.add_sub_cancel_left,
    Nat.add_comm s.errcode.toNat, Nat.testBit_two_pow_mul_add _ s.errcode.isLt, decide_eq_true (by omega), Bool.true_and]
  rfl

/-- The low bits of CTRL: START and SOFT_RESET read 0, then the two enables. -/
theorem ctrlWord_getLsbD (s : State) {k : Nat} (hk : k < 32) :
    s.ctrlWord.getLsbD k = [false, false, s.ieDone, s.ieErr].getD k false := by
  have hbits : s.ieDone.toNat * 4 + s.ieErr.toNat * 8 = bitsToNat [false, false, s.ieDone, s.ieErr] := by
    simp only [bitsToNat, Bool.toNat_false]
    ring
  rw [State.ctrlWord, hbits, BitVec.getLsbD_ofNat, testBit_bitsToNat, decide_eq_true hk, Bool.true_and]

/-- A write to CTRL that asks for neither START nor SOFT_RESET sets the enables (10_state.md R62). -/
theorem writeCtrl_of_enables (s : State) {w : Word} (hstart : w.getLsbD 0 = false) (hsoft : w.getLsbD 1 = false) :
    s.writeCtrl w = { s with ieDone := w.getLsbD 2, ieErr := w.getLsbD 3 } := by
  rw [State.writeCtrl, if_neg (Bool.eq_false_iff.1 hsoft), if_neg (Bool.eq_false_iff.1 hstart)]

/-- Settles O55: the fields by the bytes of the two words, and the two writes. -/
theorem statusWordShowsItsFields : Obligations.StatusWordShowsItsFields := by
  intro s
  refine ⟨statusWord_getLsbD_flags s (by decide), statusWord_getLsbD_flags s (by decide),
    statusWord_getLsbD_flags s (by decide), statusWord_getLsbD_flags s (by decide), fun k hk => ?errcode, ?irq,
    ctrlWord_getLsbD s (by decide), ctrlWord_getLsbD s (by decide), ctrlWord_getLsbD s (by decide),
    ctrlWord_getLsbD s (by decide), fun w => hostWriteAny_four s rfl w, fun w hstart hsoft => ?enables⟩
  case errcode => rw [statusWord_getLsbD_high s (by omega), if_pos hk]
  case irq =>
    rw [statusWord_getLsbD_high s (k := 8) (by decide), if_neg (by decide), Nat.sub_self, testBit_toNat_zero]
    rfl
  case enables => rw [hostWriteAny_four s rfl, hostWrite_ctrl, writeCtrl_of_enables s hstart hsoft]

/-! ### The register files in the window, while Idle -/

section
variable {l m : List Bool} (hl : l.length = 16)
include hl

/-- A word whose halves show two register files, the low half. -/
theorem getLsbD_halves_low (i : Fin 16) :
    (BitVec.ofNat 32 (bitsToNat l + 2 ^ 16 * bitsToNat m)).getLsbD i = l.getD i false := by
  have hlt : bitsToNat l < 2 ^ 16 := (bitsToNat_lt l).trans_eq (by rw [hl])
  rw [BitVec.getLsbD_ofNat, Nat.add_comm, Nat.testBit_two_pow_mul_add _ hlt, if_pos i.isLt, testBit_bitsToNat,
    decide_eq_true (by omega), Bool.true_and]

/-- The high half. -/
theorem getLsbD_halves_high (i : Fin 16) :
    (BitVec.ofNat 32 (bitsToNat l + 2 ^ 16 * bitsToNat m)).getLsbD (16 + i) = m.getD i false := by
  have hlt : bitsToNat l < 2 ^ 16 := (bitsToNat_lt l).trans_eq (by rw [hl])
  rw [BitVec.getLsbD_ofNat, Nat.add_comm (bitsToNat l), Nat.testBit_two_pow_mul_add _ hlt, if_neg (by omega),
    Nat.add_sub_cancel_left, testBit_bitsToNat, decide_eq_true (by omega), Bool.true_and]

end

/-- A register file as a list of marks, at register `i`. -/
theorem getD_map_toList {α : Type} (file : Vector α 16) (f : α → Bool) (i : Fin 16) :
    (file.toList.map f).getD i false = f file[i] := by
  simp [List.getD]

theorem length_map_toList {α : Type} (file : Vector α 16) (f : α → Bool) : (file.toList.map f).length = 16 := by simp

theorem isSome_eq_decide {α : Type} [DecidableEq α] (o : Option α) : o.isSome = decide (o ≠ none) := by
  cases o <;> rfl

theorem bregWord_getLsbD (s : State) (i : Fin 16) : s.bregWord.getLsbD i = s.b[i] := by
  rw [State.bregWord, BitVec.getLsbD_ofNat, testBit_bitsToNat, decide_eq_true (by omega), Bool.true_and]
  simp [List.getD]

/-- Settles O56: each word read by its halves, and the two writes. -/
theorem registerFilesShowInTheWindow : Obligations.RegisterFilesShowInTheWindow := by
  intro s i hidle
  have hfs : s.hostReadAny 0x01C 4 = s.returning s.fsvalidWord := by
    rw [hostReadAny_four s rfl, hostRead_fsvalid, hidle]
    rfl
  have hg : s.hostReadAny 0x020 4 = s.returning s.gvalidWord := by
    rw [hostReadAny_four s rfl, hostRead_gvalid, hidle]
    rfl
  rw [hfs, hg, returning_readData, returning_readData]
  refine ⟨?breg, ?f, ?sc, ?written, ?poison, 
    fun w => ⟨{ s with b := Vector.ofFn fun i => w.getLsbD i }, ?writeBreg, ?bit, rfl⟩, fun w => ?writePc⟩
  case breg =>
    rw [hostReadAny_four s rfl, hostRead_breg, hidle]
    exact bregWord_getLsbD s i
  case f =>
    rw [State.fsvalidWord, getLsbD_halves_low (length_map_toList ..), getD_map_toList]
    exact isSome_eq_decide _
  case sc =>
    rw [State.fsvalidWord, getLsbD_halves_high (length_map_toList ..), getD_map_toList]
    exact isSome_eq_decide _
  case written =>
    rw [State.gvalidWord, getLsbD_halves_low (length_map_toList ..), getD_map_toList, bne, beq_eq_decide]
    exact decide_not.symm
  case poison =>
    rw [State.gvalidWord, getLsbD_halves_high (length_map_toList ..), getD_map_toList, beq_eq_decide]
  case writeBreg => rw [hostWriteAny_four s rfl, hostWrite_breg, idleWrite_of_idle hidle]
  case writePc =>
    rw [hostWriteAny_four s rfl, hostWrite_pc, idleWrite_of_idle hidle, BitVec.setWidth_eq_extractLsb' (by decide)]
  case bit => simp

/-! ### The two resets -/

/-- A soft reset that cuts a pack command short leaves draws in its slot (70_reset_and_hazards.md R412). -/
theorem cutShort_of_pack {s : State} {i : Instr} {slot : BitVec 8} (hd : decode s.fetch = .ok i)
    (hp : packSlot i = some slot) (hslot : slot.toNat ≤ 63) :
    s.cutShort = (s.dmemWrite slot (drawBytes s.draws 32)).useDraws 32 := by
  have hbind : (decode s.fetch).toOption.bind packSlot = some slot := by
    rw [hd]
    exact hp
  unfold State.cutShort
  rw [hbind]
  exact if_pos (slotInRange_of_le hslot)

@[simp] theorem cutShort_imemWord (s : State) (k : Nat) : s.cutShort.imemWord k = s.imemWord k := by
  obtain h | ⟨i, slot, -, -, -, h⟩ := cutShort_cases s <;> rw [h]
  rw [useDraws_imemWord, dmemWrite_imemWord]

@[simp] theorem resetRegisters_imemWord (s : State) (k : Nat) : s.resetRegisters.imemWord k = s.imemWord k := rfl

@[simp] theorem resetRegisters_dmemByte (s : State) (a : Nat) : s.resetRegisters.dmemByte a = s.dmemByte a := rfl

/-- What a soft reset leaves in IMEM. -/
theorem softReset_imemWord (s : State) (k : Nat) : s.softReset.imemWord k = s.imemWord k := by
  rw [State.softReset, resetRegisters_imemWord]
  split
  · exact cutShort_imemWord s k
  · rfl

/-- DMEM after a soft reset that cuts a pack command short: draws in its slot, every other byte as before. -/
theorem softReset_dmemByte_of_pack {s : State} {i : Instr} {slot : BitVec 8} (hbusy : s.busy = true)
    (hd : decode s.fetch = .ok i) (hp : packSlot i = some slot) (hslot : slot.toNat ≤ 63) :
    (∀ j, j < 32 → s.softReset.dmemByte (32 * slot.toNat + j) = Config.draw 8 (s.draws + j)) ∧
      ∀ a, (a < 32 * slot.toNat ∨ 32 * slot.toNat + 32 ≤ a) → s.softReset.dmemByte a = s.dmemByte a := by
  have hbase : slotBase slot = 32 * slot.toNat := rfl
  have hbyte (a : Nat) : s.softReset.dmemByte a = (s.dmemWrite slot (drawBytes s.draws 32)).dmemByte a := by
    rw [State.softReset, if_pos hbusy, resetRegisters_dmemByte, cutShort_of_pack hd hp hslot, useDraws_dmemByte]
  refine ⟨fun j hj => ?_, fun a ha => ?_⟩
  · rw [hbyte, dmemByte_dmemWrite, dif_pos (by rw [length_drawBytes]; omega), getElem_drawBytes, hbase,
      Nat.add_sub_cancel_left]
  · rw [hbyte, dmemByte_dmemWrite, dif_neg (by rw [length_drawBytes]; omega)]

/-- DMEM after any other soft reset is as before. -/
theorem softReset_dmemByte_of_no_pack {s : State}
    (h : ¬∃ i slot, s.busy = true ∧ decode s.fetch = .ok i ∧ packSlot i = some slot ∧ slot.toNat ≤ 63) (a : Nat) :
    s.softReset.dmemByte a = s.dmemByte a := by
  rw [State.softReset, resetRegisters_dmemByte]
  split
  · rename_i hbusy
    obtain hcut | ⟨i, slot, hd, hp, hslot, -⟩ := cutShort_cases s
    · rw [hcut]
    · exact absurd ⟨i, slot, hbusy, hd, hp, Nat.le_of_lt_succ hslot⟩ h
  · rfl

theorem writeCtrl_of_softReset (s : State) {w : Word} (h : w.getLsbD 1 = true) : s.writeCtrl w = s.softReset := by
  rw [State.writeCtrl, if_pos h]

/-- Settles O50: the registers by definition, the memories by the command that the reset cuts short. -/
theorem softResetKeepsTheMemories : Obligations.SoftResetKeepsTheMemories := by
  intro s w hsoft
  refine ⟨s.softReset, ?_, rfl, rfl, rfl, rfl, rfl, rfl, rfl, rfl, rfl, rfl, rfl, rfl, rfl, rfl, rfl,
    softReset_imemWord s, fun i slot hbusy hd hp hslot => softReset_dmemByte_of_pack hbusy hd hp hslot,
    fun h => softReset_dmemByte_of_no_pack h⟩
  rw [hostWriteAny_four s rfl, hostWrite_ctrl, writeCtrl_of_softReset s hsoft]

/-- Every register after a reset of the registers, whatever the memories hold (10_state.md R74). -/
theorem hardReset_eq (s : State) :
    s.hardReset = { State.reset with draws := s.draws, powerOn := s.powerOn + 1, readData := s.readData,
                                     agenda := s.agenda } :=
  rfl

/-- Settles O51: the state after reset is the table, and a hard reset differs from it in the model's own fields only. -/
theorem hardResetSetsTheResetTable : Obligations.HardResetSetsTheResetTable := by
  intro s t ht
  have hfiles : (∀ i : FReg, t.f[i] = none) ∧ (∀ i : SReg, t.sc[i] = none) ∧ (∀ i : GReg, t.g[i] = .unwritten) ∧
      ∀ i : BReg, t.b[i] = false := by
    obtain rfl | rfl := ht <;> simp [hardReset_eq, State.reset]
  obtain ⟨hf, hsc, hg, hb⟩ := hfiles
  refine ⟨hf, hsc, hg, hb, ?_⟩
  obtain rfl | rfl := ht <;>
    exact ⟨rfl, rfl, rfl, rfl, rfl, rfl, rfl, rfl, rfl, rfl, rfl, rfl, fun _ => rfl, fun _ => rfl, rfl⟩

end Sys2Proof.Machine
end

section
/-! Steps: whose turn it is, the checks of the command that a running engine fetches, and that every run ends
(10_state.md R41, 40_control.md R170, R174, 20_memory.md R101, R116, 60_exceptions.md R376). -/

-- One theorem after another: many at once exceed the memory that check.sh allows for threads.
set_option Elab.async false

namespace Sys2Proof.Machine

open Safety

/-! ### Whose turn it is -/

/-- When the engine moves, a step is an engine step. -/
theorem step_of_engineMoves {s u : State} (h : EngineMoves s u) : step s = engineStep exec u := by
  obtain ⟨hagenda, rfl⟩ | ⟨rest, hagenda, rfl⟩ := h <;> rw [step, stepWith, hagenda]
  rfl

/-- Taking a turn changes nothing but the agenda. -/
theorem eq_of_engineMoves {s u : State} (h : EngineMoves s u) : u = { s with agenda := u.agenda } := by
  obtain ⟨-, rfl⟩ | ⟨rest, -, rfl⟩ := h <;> rfl

theorem step_of_event {s : State} {e : Event} {rest : List Event} (h : s.agenda = e :: rest) :
    step s = perform exec e { s with agenda := rest } := by
  rw [step, stepWith, h]

theorem engineStep_of_idle {s : State} (hidle : s.busy = false) : engineStep exec s = .next s := by
  rw [engineStep, hidle]
  rfl

theorem engineStep_of_decode {s : State} {i : Instr} (hbusy : s.busy = true) (hd : decode s.fetch = .ok i) :
    engineStep exec s = exec i s := by
  rw [engineStep, if_pos hbusy, hd]

theorem engineStep_of_illegal {s : State} {e : DecodeError} (hbusy : s.busy = true) (hd : decode s.fetch = .error e) :
    engineStep exec s = .next (s.errorStop .illegal) := by
  rw [engineStep, if_pos hbusy, hd]
  rfl

/-- Settles O6: with either agenda the engine moves, Running, at the state less the turn. -/
theorem stepRunsTheDecodedCommand : Obligations.StepRunsTheDecodedCommand := by
  intro s i hbusy hd
  refine ⟨fun hagenda => ?_, fun rest hagenda => ?_⟩
  · exact (step_of_engineMoves (.inl ⟨hagenda, rfl⟩)).trans (engineStep_of_decode hbusy hd)
  · exact (step_of_engineMoves (.inr ⟨rest, hagenda, rfl⟩)).trans (engineStep_of_decode hbusy hd)

/-- Settles O7: taking a turn leaves the phase. -/
theorem idleEngineExecutesNothing : Obligations.IdleEngineExecutesNothing := by
  intro s u hidle h
  have hu : u.busy = false := by rwa [eq_of_engineMoves h]
  exact (step_of_engineMoves h).trans (engineStep_of_idle hu)

theorem atWindow_of_base {off : Nat} (h : off < 4096) (access : Nat → State) :
    atWindow (Config.mmioBase + off) access = .next (access off) := by
  rw [atWindow, windowOffset_base h]

theorem atWindow_of_outside {addr : Nat} (h : addr < Config.mmioBase ∨ Config.mmioBase + 4096 ≤ addr)
    (access : Nat → State) : atWindow addr access = .fault .outsideWindow := by
  rw [atWindow, windowOffset_outside h]

/-- Settles O8: the first event, by the offset its address reaches. -/
theorem stepPerformsTheNextEvent : Obligations.StepPerformsTheNextEvent := by
  intro s rest
  refine ⟨fun off bytes hoff h => ?_, fun off bytes w hoff h => ?_, fun addr bytes hout h => ?_,
    fun addr bytes w hout h => ?_, fun h => step_of_event h⟩
  · exact (step_of_event h).trans (atWindow_of_base hoff _)
  · exact (step_of_event h).trans (atWindow_of_base hoff _)
  · exact (step_of_event h).trans (atWindow_of_outside hout _)
  · exact (step_of_event h).trans (atWindow_of_outside hout _)

/-! ### The checks of a command, in their order -/

section
variable {i : Instr} {s : State}

theorem exec_of_illFormed (hwf : wellFormed i = false) : exec i s = .next (s.errorStop .range) := by
  have hhalt : isHalt i = false := by cases i <;> first | rfl | cases hwf
  obtain ⟨p, hp⟩ := hasPlan s hhalt
  rw [hp.exec_eq, hwf, checkRange_false]

/-- HALT names no source. -/
theorem sources_of_isHalt (h : isHalt i = true) : sources i = [] := by
  cases i <;> cases h
  rfl

theorem exec_of_unwritten (hwf : wellFormed i = true) (h : ∃ r ∈ sources i, unwritten s r = true) :
    exec i s = .next (s.errorStop .uninit) := by
  have hhalt : isHalt i = false := by
    by_contra hhalt
    simp [sources_of_isHalt (Bool.eq_true_of_not_eq_false hhalt)] at h
  obtain ⟨p, hp⟩ := hasPlan s hhalt
  rw [hp.exec_eq, hwf, checkRange_true, hp.reads.unwritten_iff.2 h, withSources_unwritten]

theorem exec_of_poisoned (hwf : wellFormed i = true) (hw : ∀ r ∈ sources i, unwritten s r = false)
    (h : ∃ r ∈ sources i, poisoned s r = true) : exec i s = .next (s.errorStop .poison) := by
  have hhalt : isHalt i = false := by
    by_contra hhalt
    simp [sources_of_isHalt (Bool.eq_true_of_not_eq_false hhalt)] at h
  obtain ⟨p, hp⟩ := hasPlan s hhalt
  rw [hp.exec_eq, hwf, checkRange_true, hp.reads.poison_iff.2 ⟨hw, h⟩, withSources_poison]

/-- A command that passes its checks counts itself. -/
theorem exec_of_checked (hwf : wellFormed i = true) (hw : ∀ r ∈ sources i, unwritten s r = false)
    (hp : ∀ r ∈ sources i, poisoned s r = false) : ∃ t, exec i s = .next t ∧ t.retired = s.retired + 1 := by
  cases hhalt : isHalt i with
  | true => exact ⟨_, exec_of_isHalt hhalt s, rfl⟩
  | false =>
    obtain ⟨p, hplan⟩ := hasPlan s hhalt
    rw [hplan.exec_eq, hwf, checkRange_true]
    cases p with
    | unwritten =>
      obtain ⟨r, hr, hbad⟩ := hplan.reads.unwritten_iff.1 rfl
      rw [hw r hr] at hbad
      cases hbad
    | poison =>
      obtain ⟨-, r, hr, hbad⟩ := hplan.reads.poison_iff.1 rfl
      rw [hp r hr] at hbad
      cases hbad
    | value e => exact ⟨_, withSources_value .., by simp⟩

end

/-- Settles O10: each check by its outcome, at the state less the turn, which has the registers of `s`. -/
theorem checksAreMadeInTheFixedOrder : Obligations.ChecksAreMadeInTheFixedOrder := by
  intro s u hbusy hmoves
  rw [step_of_engineMoves hmoves]
  obtain ⟨a, hu⟩ : ∃ a, u = { s with agenda := a } := ⟨_, eq_of_engineMoves hmoves⟩
  have hbusy' : u.busy = true := by rw [hu, hbusy]
  have hfetch : s.imemWord s.pc.toNat = u.fetch := by rw [hu]; rfl
  have hretired : s.retired = u.retired := by rw [hu]
  have hunwritten (r : Source) : unwritten s r = unwritten u r := by rw [hu]; cases r <;> rfl
  have hpoisoned (r : Source) : poisoned s r = poisoned u r := by rw [hu]; cases r <;> rfl
  simp only [hfetch, hretired, hunwritten, hpoisoned]
  refine ⟨fun e hd => ⟨_, engineStep_of_illegal hbusy' hd, rfl⟩, fun i hd => ?_⟩
  rw [engineStep_of_decode hbusy' hd]
  exact ⟨fun hwf => ⟨_, exec_of_illFormed hwf, rfl⟩, fun hwf h => ⟨_, exec_of_unwritten hwf h, rfl⟩,
    fun hwf hw h => ⟨_, exec_of_poisoned hwf hw h, rfl⟩, fun hwf hw hp => exec_of_checked hwf hw hp⟩

/-! ### Every run ends -/

/-- How a run ends: by a HALT, or by an error with its code. -/
def EndsFrom (s t : State) : Prop :=
  t.busy = false ∧
    ((t.done = true ∧ t.err = s.err) ∨ (t.err = true ∧ t.done = s.done ∧ 1 ≤ t.errcode.toNat ∧ t.errcode.toNat ≤ 5))

/-- The codes of 60_exceptions.md R370 are 1 to 5. -/
theorem errorCode_bounds (e : EngineError) : 1 ≤ (errorCode e).toNat ∧ (errorCode e).toNat ≤ 5 := by
  cases e <;> decide

theorem endsFrom_errorStop (s : State) (e : EngineError) : EndsFrom s (s.errorStop e) :=
  ⟨rfl, .inr ⟨rfl, rfl, errorCode_bounds e⟩⟩

/-- One step of a run on a quiet bus ends it or moves the PC on by one. -/
theorem step_of_quiet {s : State} (hbusy : s.busy = true) (hquiet : s.agenda = []) :
    ∃ t, step s = .next t ∧ (EndsFrom s t ∨ (s.pc ≠ 255 ∧ t.pc = s.pc + 1 ∧ t.busy = true ∧ t.agenda = [] ∧
      t.err = s.err ∧ t.done = s.done)) := by
  rw [step_of_engineMoves (.inl ⟨hquiet, rfl⟩)]
  cases hd : decode s.fetch with
  | error e => exact ⟨_, engineStep_of_illegal hbusy hd, .inl (endsFrom_errorStop s _)⟩
  | ok i =>
    rw [engineStep_of_decode hbusy hd]
    obtain ⟨e, -, h⟩ | ⟨-, h⟩ | ⟨e, -, -, -, h⟩ := exec_cases i s
    · exact ⟨_, h, .inl (endsFrom_errorStop s e)⟩
    · exact ⟨_, h, .inl ⟨rfl, .inl ⟨rfl, rfl⟩⟩⟩
    · refine ⟨_, h, ?_⟩
      obtain ⟨-, hnext, hpcovf⟩ := e.retired_apply s
      by_cases hpc : s.pc = 255
      · obtain ⟨-, hstop, herr, hcode, -⟩ := hpcovf hpc
        exact .inl ⟨hstop, .inr ⟨herr, by simp, by simp [hcode], by simp [hcode]⟩⟩
      · obtain ⟨hpc', hbusy', herr, -⟩ := hnext hpc
        exact .inr ⟨hpc, hpc', hbusy'.trans hbusy, by simpa using hquiet, herr, by simp⟩

theorem core_run_succ (M : Host.Core) {k : Nat} {s t : M.State} (h : M.step s = .next t) :
    M.run (k + 1) s = M.run k t := by
  rw [Host.Core.run, h]

theorem runSteps_succ {k : Nat} {s t : State} (h : step s = .next t) : runSteps (k + 1) s = runSteps k t :=
  core_run_succ Sys2Proof.core h

/-- A run with `n` words left up to IMEM's end takes at most `n` steps. -/
theorem run_ends (n : Nat) {s : State} (hn : 256 - s.pc.toNat = n) (hbusy : s.busy = true) (hquiet : s.agenda = []) :
    ∃ k t, k ≤ n ∧ runSteps k s = .next t ∧ EndsFrom s t := by
  induction n generalizing s with
  | zero =>
    have hpc := s.pc.isLt
    omega
  | succ n ih =>
    obtain ⟨t, hstep, hend | ⟨hpc, hpc', hbusy', hquiet', herr, hdone⟩⟩ := step_of_quiet hbusy hquiet
    · exact ⟨1, t, by omega, runSteps_succ hstep, hend⟩
    · have hn' : 256 - t.pc.toNat = n := by
        rw [hpc']
        bv_omega
      obtain ⟨k, u, hk, hrun, hend⟩ := ih hn' hbusy' hquiet'
      refine ⟨k + 1, u, by omega, (runSteps_succ hstep).trans hrun, ?_⟩
      rwa [EndsFrom, herr, hdone] at hend

/-- Settles O13, by induction on the number of words from the PC to IMEM's end. -/
theorem everyRunEndsWithinItsBound : Obligations.EveryRunEndsWithinItsBound :=
  fun _ hbusy hquiet => run_ends _ rfl hbusy hquiet

end Sys2Proof.Machine
end

section
/-! What a step can do to the whole machine, and the invariants on the memories, the status bits and RETIRED
(10_state.md R70, R72, R73, 60_exceptions.md R370, R375, R377, R381). -/

-- One theorem after another: many at once exceed the memory that check.sh allows for threads.
set_option Elab.async false

namespace Sys2Proof.Machine

open Safety

/-! ### Host writes -/

/-- All that a host write can do. -/
inductive WriteOutcome (s : State) : State → Prop
  | kept : WriteOutcome s s
  | herr : WriteOutcome s { s with herr := true }
  | softReset : WriteOutcome s s.softReset
  | enables (x y z : Bool) : WriteOutcome s { s with ieDone := x, ieErr := y, herr := z }
  | start (x y : Bool) (hidle : s.busy = false) :
      WriteOutcome s { s with ieDone := x, ieErr := y, done := false, err := false, errcode := 0, errpc := 0,
                              errword := 0, retired := 0, busy := true }
  | status (w : Word) : WriteOutcome s (s.writeStatus w)
  | pc (q : BitVec 8) (hidle : s.busy = false) : WriteOutcome s { s with pc := q }
  | breg (b : Vector Bool 16) : WriteOutcome s { s with b := b }
  | imem (k : Nat) (w : Word) (hk : k < 256) : WriteOutcome s (s.imemWrite k w)
  | dmem (a : Nat) (w : Word) (ha : a + 4 ≤ 2048) :
      WriteOutcome s { s with dmem := Memory.writeRun s.dmem a (bytesOfWord w) }

theorem writeCtrl_outcome (s : State) (w : Word) : WriteOutcome s (s.writeCtrl w) := by
  by_cases hsoft : w.getLsbD 1 = true
  · rw [writeCtrl_of_softReset s hsoft]
    exact .softReset
  have hsoft' := Bool.eq_false_of_not_eq_true hsoft
  by_cases hstart : w.getLsbD 0 = true
  · rw [writeCtrl_of_start s hstart hsoft']
    by_cases hbusy : s.busy = true
    · rw [start_of_running (by exact hbusy)]
      exact .enables _ _ true
    · rw [start_of_idle (by exact Bool.eq_false_of_not_eq_true hbusy)]
      exact .start _ _ (Bool.eq_false_of_not_eq_true hbusy)
  · rw [writeCtrl_of_enables s (Bool.eq_false_of_not_eq_true hstart) hsoft']
    exact .enables _ _ s.herr

/-- A write that is refused while Running. -/
theorem idleWrite_outcome {s t : State} (h : s.busy = false → WriteOutcome s t) : WriteOutcome s (s.idleWrite t) := by
  cases hbusy : s.busy with
  | true =>
    rw [idleWrite_of_running hbusy]
    exact .herr
  | false =>
    rw [idleWrite_of_idle hbusy]
    exact h hbusy

theorem hostWrite_outcome (s : State) (w : Word) {off : Nat} (h4 : off % 4 = 0) (hoff : off < 4096) :
    WriteOutcome s (s.hostWrite off w) := by
  unfold State.hostWrite
  split
  · exact writeCtrl_outcome s w
  split
  · exact .status w
  split
  · exact idleWrite_outcome fun hidle => .pc _ hidle
  split
  · exact idleWrite_outcome fun _ => .breg _
  split
  · exact .kept
  split
  · exact idleWrite_outcome fun _ => .imem _ _ (by omega)
  · exact idleWrite_outcome fun _ => .dmem _ _ (by omega)

theorem hostWriteAny_outcome (s : State) (bytes : Nat) (w : Word) {off : Nat} (hoff : off < 4096) :
    WriteOutcome s (s.hostWriteAny off bytes w) := by
  rw [State.hostWriteAny]
  split
  · rename_i h
    have h4 : off % 4 = 0 := by
      simp only [aligned, Bool.and_eq_true, beq_iff_eq] at h
      exact h.2
    exact hostWrite_outcome s w h4 hoff
  · exact .herr

/-! ### Steps -/

/-- What a property must survive to hold after every step, once it holds: the host's record and HERR, an error stop of a
running engine, its commands, host writes and the two resets. -/
structure Stable (I : State → Prop) : Prop where
  record : ∀ (s : State) (h : Bool) (d : Nat) (r : Word) (a : List Event), I s →
    I { s with herr := h, draws := d, readData := r, agenda := a }
  errorStop : ∀ (s : State) (e : EngineError), s.busy = true → I s → I (s.errorStop e)
  retireHalt : ∀ s : State, s.busy = true → I s → I s.retireHalt
  effect : ∀ (i : Instr) (e : Effect) (s : State), s.busy = true → wellFormed i = true → e.NamedBy i →
    exec i s = .next (e.apply s).retire → I s → I (e.apply s).retire
  write : ∀ s t : State, WriteOutcome s t → I s → I t
  hardReset : ∀ s : State, I s → I s.hardReset

/-- An access that has a next state has it at an offset of the window. -/
theorem next_of_atWindow {I : State → Prop} {addr : Nat} {access : Nat → State} {t : State}
    (h : atWindow addr access = .next t)
    (ha : ∀ off, off < 4096 → I (access off)) : I t := by
  rw [atWindow] at h
  split at h
  · cases h
  · rename_i off hoff
    cases h
    exact ha off (windowOffset_lt hoff)

namespace Stable

variable {I : State → Prop} (hI : Stable I)
include hI

theorem agenda {s : State} (a : List Event) (h : I s) : I { s with agenda := a } :=
  hI.record s s.herr s.draws s.readData a h

theorem hostReadAny {s : State} (off bytes : Nat) (h : I s) : I (s.hostReadAny off bytes) := by
  obtain ⟨herr, d, r, hread, -⟩ := hostReadsHaveNoSideEffect s off bytes
  rw [hread]
  exact hI.record s herr d r s.agenda h

theorem engineStep {s t : State} (h : engineStep exec s = .next t) (hs : I s) : I t := by
  cases hbusy : s.busy with
  | false =>
    rw [engineStep_of_idle hbusy] at h
    cases h
    exact hs
  | true =>
    cases hd : decode s.fetch with
    | error e =>
      rw [engineStep_of_illegal hbusy hd] at h
      cases h
      exact hI.errorStop s _ hbusy hs
    | ok i =>
      rw [engineStep_of_decode hbusy hd] at h
      obtain ⟨e, -, rfl⟩ | ⟨-, rfl⟩ | ⟨e, -, hwf, hnamed, rfl⟩ := next_cases h
      · exact hI.errorStop s e hbusy hs
      · exact hI.retireHalt s hbusy hs
      · exact hI.effect i e s hbusy hwf hnamed h hs

/-- A stable property is kept by every step of the machine. -/
theorem step {s t : State} (h : step s = .next t) (hs : I s) : I t := by
  rw [Machine.step, stepWith] at h
  split at h
  · exact hI.engineStep h hs
  · rename_i e rest _
    have hs' := hI.agenda rest hs
    cases e with
    | read addr bytes => exact next_of_atWindow h fun off _ => hI.hostReadAny off bytes hs'
    | write addr bytes w => exact next_of_atWindow h fun off hoff => hI.write _ _ (hostWriteAny_outcome _ bytes w hoff) hs'
    | hardReset =>
      cases h
      exact hI.hardReset _ hs'
    | engineTurn => exact hI.engineStep h hs'

end Stable

/-! ### The memories -/

theorem wf_nil {w : Nat} (bound : Nat) : Memory.wf bound ([] : Memory w) := ⟨.nil, by simp⟩

theorem slot_fits {slot : BitVec 8} (h : slot.toNat ≤ 63) : slotBase slot + 32 ≤ 2048 := by
  have hbase : slotBase slot = 32 * slot.toNat := rfl
  omega

theorem memoryCanonical_dmemWrite {s : State} {slot : BitVec 8} {bytes : List Byte} (hslot : slot.toNat ≤ 63)
    (hlen : bytes.length = 32) (h : MemoryCanonical s) : MemoryCanonical (s.dmemWrite slot bytes) :=
  ⟨Memory.writeRun_wf h.1 (hlen ▸ slot_fits hslot), h.2⟩

theorem memoryCanonical_cutShort {s : State} (h : MemoryCanonical s) : MemoryCanonical s.cutShort := by
  obtain h' | ⟨i, slot, -, -, hslot, h'⟩ := cutShort_cases s <;> rw [h']
  · exact h
  · rw [MemoryCanonical, useDraws_dmem, useDraws_imem]
    exact memoryCanonical_dmemWrite (Nat.le_of_lt_succ hslot) (length_drawBytes _ _) h

theorem memoryCanonical_resetRegisters {s : State} : MemoryCanonical s.resetRegisters ↔ MemoryCanonical s := Iff.rfl

theorem memoryCanonical_softReset {s : State} (h : MemoryCanonical s) : MemoryCanonical s.softReset := by
  rw [State.softReset, memoryCanonical_resetRegisters]
  split
  · exact memoryCanonical_cutShort h
  · exact h

theorem stable_memoryCanonical : Stable MemoryCanonical where
  record _ _ _ _ _ h := h
  errorStop _ _ _ h := h
  retireHalt _ _ h := h
  effect i e s _ hwf hnamed _ h := by
    have happly : MemoryCanonical (e.apply s) := by
      cases e with
      | store slot bytes => exact memoryCanonical_dmemWrite (packSlot_le_of_wellFormed hwf hnamed.1) hnamed.2 h
      | _ => exact h
    rwa [MemoryCanonical, retire_dmem, retire_imem]
  write s t hw h := by
    cases hw with
    | softReset => exact memoryCanonical_softReset h
    | imem k w hk => exact ⟨h.1, Memory.write_wf h.2 hk⟩
    | dmem a w ha => exact ⟨Memory.writeRun_wf h.1 (by rwa [length_bytesOfWord]), h.2⟩
    | _ => exact h
  hardReset _ _ := ⟨wf_nil _, wf_nil _⟩

/-- Settles O15: a store to an existing slot, and host writes within the window, keep the form. -/
theorem everyStepKeepsMemoryCanonical : Obligations.EveryStepKeepsMemoryCanonical :=
  fun _ _ h hstep => stable_memoryCanonical.step hstep h

/-! ### The status bits -/

theorem statusCoherent_of_reset {s : State} (hbusy : s.busy = false) (hdone : s.done = false) (herr : s.err = false)
    (hcode : s.errcode = 0) : StatusCoherent s := by
  simp [StatusCoherent, hbusy, hdone, herr, hcode]

/-- An error ends a coherent run coherently: the run had not set DONE. -/
theorem statusCoherent_errorStop {s : State} (e : EngineError) (hbusy : s.busy = true) (h : StatusCoherent s) :
    StatusCoherent (s.errorStop e) := by
  obtain ⟨hrun, -⟩ := h
  obtain ⟨hdone, -⟩ := hrun hbusy
  obtain ⟨hlo, hhi⟩ := errorCode_bounds e
  refine ⟨fun h => absurd h (by simp), fun ⟨h, _⟩ => absurd h (by simp [hdone]), fun _ h => ?_, hhi⟩
  rw [errorStop_errcode] at h
  simp [h] at hlo

theorem statusCoherent_retire {s : State} (hbusy : s.busy = true) (h : StatusCoherent s) : StatusCoherent s.retire := by
  unfold State.retire
  split
  · exact statusCoherent_errorStop .pcovf hbusy h
  · exact h

theorem stable_statusCoherent : Stable StatusCoherent where
  record _ _ _ _ _ h := h
  errorStop _ e hbusy h := statusCoherent_errorStop e hbusy h
  retireHalt s hbusy h := by
    obtain ⟨hrun, -, -, hcode⟩ := h
    obtain ⟨-, herr⟩ := hrun hbusy
    exact ⟨fun h => absurd h (by simp), fun ⟨_, h⟩ => absurd h (by simp [herr]), fun h => absurd h (by simp [herr]), hcode⟩
  effect i e s hbusy _ _ _ h := by
    refine statusCoherent_retire (by simpa using hbusy) ?_
    simpa [StatusCoherent] using h
  write s t hw h := by
    cases hw with
    | softReset => exact statusCoherent_of_reset rfl rfl rfl rfl
    | start x y hidle => simp [StatusCoherent]
    | status w =>
      obtain ⟨hrun, hone, herr, hcode⟩ := h
      refine ⟨fun hbusy => ?_, fun ⟨hd, he⟩ => hone ?_, fun he => herr ?_, hcode⟩
      · obtain ⟨hdone, herr⟩ := hrun hbusy
        simp [State.writeStatus, hdone, herr]
      · exact ⟨(Bool.and_eq_true_iff.1 hd).1, (Bool.and_eq_true_iff.1 he).1⟩
      · exact (Bool.and_eq_true_iff.1 he).1
    | _ => exact h
  hardReset _ _ := statusCoherent_of_reset rfl rfl rfl rfl

/-- Settles O16: an error or a HALT sets its bit only in a run, which had set neither. -/
theorem everyStepKeepsStatusCoherent : Obligations.EveryStepKeepsStatusCoherent :=
  fun _ _ h hstep => stable_statusCoherent.step hstep h

/-! ### RETIRED -/

theorem retiredBounded_of_zero {s : State} (h : s.retired = 0) : RetiredBounded s := by
  simp [RetiredBounded, h]

/-- A running engine has retired at most as many commands as its PC says, so one more does not pass 256. -/
theorem toNat_retired_add_one {s : State} (hbusy : s.busy = true) (h : RetiredBounded s) :
    (s.retired + 1).toNat ≤ s.pc.toNat + 1 ∧ (s.retired + 1).toNat ≤ 256 := by
  have hle := h.1 hbusy
  have hpc := s.pc.isLt
  have hsucc : (s.retired + 1).toNat = s.retired.toNat + 1 := by bv_omega
  omega

theorem retiredBounded_retire {s : State} (hbusy : s.busy = true) (h : RetiredBounded s) : RetiredBounded s.retire := by
  obtain ⟨hle, hmax⟩ := toNat_retired_add_one hbusy h
  by_cases hpc : s.pc = 255
  · rw [retire_of_eq hpc]
    exact ⟨fun h => absurd h (by simp), hmax⟩
  · rw [retire_of_ne hpc]
    refine ⟨fun _ => hle.trans (Eq.ge ?_), hmax⟩
    show (s.pc + 1).toNat = s.pc.toNat + 1
    bv_omega

theorem stable_retiredBounded : Stable RetiredBounded where
  record _ _ _ _ _ h := h
  errorStop _ _ _ h := ⟨fun h => absurd h (by simp), h.2⟩
  retireHalt s hbusy h := ⟨fun h => absurd h (by simp), (toNat_retired_add_one hbusy h).2⟩
  effect i e s hbusy _ _ _ h := by
    refine retiredBounded_retire (by simpa using hbusy) ?_
    simpa [RetiredBounded] using h
  write s t hw h := by
    cases hw with
    | softReset => exact retiredBounded_of_zero rfl
    | start x y hidle => exact retiredBounded_of_zero rfl
    | pc q hidle => exact ⟨fun h => absurd h (by simp [hidle]), h.2⟩
    | _ => exact h
  hardReset _ _ := retiredBounded_of_zero rfl

/-- Settles O17: only a running engine counts, and its PC moves with the count. -/
theorem everyStepKeepsRetiredBounded : Obligations.EveryStepKeepsRetiredBounded :=
  fun _ _ h hstep => stable_retiredBounded.step hstep h

/-! ### Reset -/

theorem reset_g (i : GReg) : State.reset.g[i] = .unwritten := by
  simp [State.reset]

/-- Settles O14: the memories are empty, no status bit is set, and no register holds a point. -/
theorem invariantsHoldAtReset : Obligations.InvariantsHoldAtReset := by
  refine ⟨⟨wf_nil _, wf_nil _⟩, statusCoherent_of_reset rfl rfl rfl rfl, retiredBounded_of_zero rfl, fun i P h => ?_,
    fun i P h => ?_⟩
  · rw [reset_g] at h
    cases h
  · rw [reset_g] at h
    cases h

end Sys2Proof.Machine
end

section
/-! The next state of each command that writes registers only, and the integer or the flag it writes (41_field.md R202 to
R211, R216 to R221, 42_scalar.md R280 to R287, 43_group.md R334 to R345). -/

-- One theorem after another: many at once exceed the memory that check.sh allows for threads.
set_option Elab.async false

namespace Sys2Proof.Machine

open Safety

/-! ### Frames, by the registers written -/

section
variable (s : State)

theorem onlyFB_setF_setB_retire (i : FReg) (v : Fe) (c : BReg) (x : Bool) :
    OnlyFB s ((s.setF i v).setB c x).retire i v c x := by
  refine ⟨?f, by simp, by simp, ?b, by simp, by simp [SameMemory], sameShell_retire ((s.setF i v).setB c x),
    retired_retire ((s.setF i v).setB c x)⟩
  case f =>
    rw [retire_f, setB_f, setF_f]
    exact wrote_set s.f i (some v)
  case b =>
    rw [retire_b, setB_b, setF_b]
    exact wrote_set s.b c x

theorem onlyFDraw_setF_useDraws_retire (i : FReg) (v : Fe) : OnlyFDraw s ((s.setF i v).useDraws 1).retire i v := by
  refine ⟨?wrote, by simp, by simp, by simp, by simp, by simp [SameMemory], sameShell_retire ((s.setF i v).useDraws 1),
    retired_retire ((s.setF i v).useDraws 1)⟩
  case wrote =>
    rw [retire_f, useDraws_f, setF_f]
    exact wrote_set s.f i (some v)

theorem onlyG_setG_retire (i : GReg) (r : PointReg) : OnlyG s (s.setG i r).retire i r := by
  refine ⟨by simp, by simp, ?wrote, by simp, by simp, by simp [SameMemory], sameShell_retire (s.setG i r),
    retired_retire (s.setG i r)⟩
  case wrote =>
    rw [retire_g, setG_g]
    exact wrote_set s.g i r

theorem onlyGB_setG_setB_retire (i : GReg) (r : PointReg) (c : BReg) (x : Bool) :
    OnlyGB s ((s.setG i r).setB c x).retire i r c x := by
  refine ⟨by simp, by simp, ?g, ?b, by simp, by simp [SameMemory], sameShell_retire ((s.setG i r).setB c x),
    retired_retire ((s.setG i r).setB c x)⟩
  case g =>
    rw [retire_g, setB_g, setG_g]
    exact wrote_set s.g i r
  case b =>
    rw [retire_b, setB_b, setG_b]
    exact wrote_set s.b c x

theorem onlyB_setB_retire (i : BReg) (x : Bool) : OnlyB s (s.setB i x).retire i x := by
  refine ⟨by simp, by simp, by simp, ?wrote, by simp, by simp [SameMemory], sameShell_retire (s.setB i x),
    retired_retire (s.setB i x)⟩
  case wrote =>
    rw [retire_b, setB_b]
    exact wrote_set s.b i x

end

/-! ### Sources that hold values -/

section
variable {s : State} {ra rb : Fin 16}

theorem withSources_readF {a : Fe} (ha : s.f[ra] = some a) (effect : Fe → State) :
    withSources (s.readF ra) s effect = .next (effect a).retire := by
  rw [readF_of_some ha, withSources_value]

theorem withSources_both_readF {a b : Fe} (ha : s.f[ra] = some a) (hb : s.f[rb] = some b) (effect : Fe × Fe → State) :
    withSources ((s.readF ra).both (s.readF rb)) s effect = .next (effect (a, b)).retire := by
  rw [readF_of_some ha, readF_of_some hb, both_value, withSources_value]

theorem withSources_readG {P : Pt} (hP : s.g[ra] = .point P) (effect : Pt → State) :
    withSources (s.readG ra) s effect = .next (effect P).retire := by
  rw [readG_of_point hP, withSources_value]

theorem withSources_both_readG {P Q : Pt} (hP : s.g[ra] = .point P) (hQ : s.g[rb] = .point Q)
    (effect : Pt × Pt → State) :
    withSources ((s.readG ra).both (s.readG rb)) s effect = .next (effect (P, Q)).retire := by
  rw [readG_of_point hP, readG_of_point hQ, both_value, withSources_value]

theorem withSources_both_readG_readS {P : Pt} {k : Scalar} (hP : s.g[ra] = .point P) (hk : s.sc[rb] = some k)
    (effect : Pt × Scalar → State) :
    withSources ((s.readG ra).both (s.readS rb)) s effect = .next (effect (P, k)).retire := by
  rw [readG_of_point hP, readS_of_some hk, both_value, withSources_value]

end

/-! ### Field arithmetic -/

theorem val_feSub_add_mod (a b : Fe) : ((a - b).val + b.val) % fieldPrime = a.val := by
  rw [← Fin.val_add, sub_add_cancel]

theorem val_feNeg_add_mod (a : Fe) : ((-a).val + a.val) % fieldPrime = 0 := by
  rw [← Fin.val_add, neg_add_cancel, Fin.val_zero]

theorem val_feDouble (a : Fe) : (a + a).val = 2 * a.val % fieldPrime := by
  rw [Fin.val_add, two_mul]

theorem val_feTriple (a : Fe) : (a + a + a).val = 3 * a.val % fieldPrime := by
  rw [Fin.val_add, Fin.val_add, Nat.mod_add_mod]
  congr 1
  ring

theorem val_feSquare (a : Fe) : (a * a).val = a.val ^ 2 % fieldPrime := by
  rw [Fin.val_mul, pow_two]

theorem val_feSquare_double (a : Fe) : (a * a + a * a).val = 2 * a.val ^ 2 % fieldPrime := by
  rw [val_feDouble, val_feSquare, Nat.mul_mod_mod]

theorem isNegative_iff {a : Fe} : isNegative a = true ↔ a.val % 2 = 1 := beq_iff_eq

theorem isNegative_eq_false_iff {a : Fe} : isNegative a = false ↔ a.val % 2 = 0 := by
  rw [isNegative, beq_eq_false_iff_ne, Nat.mod_two_ne_one]

/-- Negation of a nonzero field value, as an integer. -/
theorem val_feNeg {a : Fe} (h : a ≠ 0) : (-a).val = fieldPrime - a.val := by
  have hpos : 0 < a.val := Nat.pos_of_ne_zero fun h' => h (Fin.ext h')
  have hlt := a.isLt
  show (fieldPrime - a.val) % fieldPrime = _
  exact Nat.mod_eq_of_lt (by omega)

/-- p is odd, so negation flips the sign of a nonzero value. -/
theorem isNegative_neg {a : Fe} (h : a ≠ 0) : isNegative (-a) = !isNegative a := by
  have hlt := a.isLt
  have hodd : fieldPrime % 2 = 1 := by norm_num
  cases hs : isNegative a with
  | true =>
    rw [isNegative_iff] at hs
    rw [Bool.not_true, isNegative_eq_false_iff, val_feNeg h]
    omega
  | false =>
    rw [isNegative_eq_false_iff] at hs
    rw [Bool.not_false, isNegative_iff, val_feNeg h]
    omega

theorem ne_zero_of_isNegative {a : Fe} (h : isNegative a = true) : a ≠ 0 := by
  rintro rfl
  cases h

theorem feAbs_of_isNegative {a : Fe} (h : isNegative a = true) : feAbs a = -a := if_pos h

theorem feAbs_of_nonneg {a : Fe} (h : isNegative a = false) : feAbs a = a := if_neg (Bool.eq_false_iff.1 h)

@[simp] theorem isNegative_feAbs (a : Fe) : isNegative (feAbs a) = false := by
  cases h : isNegative a with
  | true => rw [feAbs_of_isNegative h, isNegative_neg (ne_zero_of_isNegative h), h, Bool.not_true]
  | false => rw [feAbs_of_nonneg h, h]

theorem val_feAbs (a : Fe) : (feAbs a).val = if a.val % 2 = 1 then fieldPrime - a.val else a.val := by
  split
  · rename_i h
    rw [← isNegative_iff] at h
    rw [feAbs_of_isNegative h, val_feNeg (ne_zero_of_isNegative h)]
  · rename_i h
    rw [← isNegative_iff, Bool.not_eq_true] at h
    rw [feAbs_of_nonneg h]

section
variable {s : State} {ra rb : FReg} {a b : Fe} (v : Bool) (rd : FReg) (rc : BReg)

theorem exec_fadd (ha : s.f[ra] = some a) (hb : s.f[rb] = some b) :
    exec (.fadd v rd ra rb) s = .next (s.setF rd (a + b)).retire :=
  withSources_both_readF ha hb fun p => s.setF rd (p.1 + p.2)

theorem exec_fsub (ha : s.f[ra] = some a) (hb : s.f[rb] = some b) :
    exec (.fsub v rd ra rb) s = .next (s.setF rd (a - b)).retire :=
  withSources_both_readF ha hb fun p => s.setF rd (p.1 - p.2)

theorem exec_fmul (ha : s.f[ra] = some a) (hb : s.f[rb] = some b) :
    exec (.fmul v rd ra rb) s = .next (s.setF rd (a * b)).retire :=
  withSources_both_readF ha hb fun p => s.setF rd (p.1 * p.2)

theorem exec_fneg (ha : s.f[ra] = some a) : exec (.fneg v rd ra) s = .next (s.setF rd (-a)).retire :=
  withSources_readF ha fun x => s.setF rd (-x)

theorem exec_fdbl (ha : s.f[ra] = some a) : exec (.fdbl v rd ra) s = .next (s.setF rd (a + a)).retire :=
  withSources_readF ha fun x => s.setF rd (x + x)

theorem exec_ftrpl (ha : s.f[ra] = some a) : exec (.ftrpl v rd ra) s = .next (s.setF rd (a + a + a)).retire :=
  withSources_readF ha fun x => s.setF rd (x + x + x)

theorem exec_fsqr (ha : s.f[ra] = some a) : exec (.fsqr v rd ra) s = .next (s.setF rd (a * a)).retire :=
  withSources_readF ha fun x => s.setF rd (x * x)

theorem exec_fsqr2 (ha : s.f[ra] = some a) : exec (.fsqr2 v rd ra) s = .next (s.setF rd (a * a + a * a)).retire :=
  withSources_readF ha fun x => s.setF rd (x * x + x * x)

theorem exec_fabs (ha : s.f[ra] = some a) : exec (.fabs v rd ra) s = .next (s.setF rd (feAbs a)).retire :=
  withSources_readF ha fun x => s.setF rd (feAbs x)

theorem exec_finv (ha : s.f[ra] = some a) : exec (.finv v rd ra) s = .next (s.setF rd (feInv a)).retire :=
  withSources_readF ha fun x => s.setF rd (feInv x)

theorem exec_fpow2523 (ha : s.f[ra] = some a) :
    exec (.fpow2523 v rd ra) s = .next (s.setF rd (fePow a (2 ^ 252 - 3))).retire :=
  withSources_readF ha fun x => s.setF rd (fePow x (2 ^ 252 - 3))

theorem exec_finvsqrt (ha : s.f[ra] = some a) :
    exec (.finvsqrt v rd ra) s = .next ((s.setF rd (invSqrtDraw s.draws a)).useDraws 1).retire :=
  withSources_readF ha fun x => (s.setF rd (invSqrtDraw s.draws x)).useDraws 1

theorem exec_fsqrt (ha : s.f[ra] = some a) :
    exec (.fsqrt v rd ra) s = .next ((s.setF rd (invSqrtDraw s.draws a * a)).useDraws 1).retire :=
  withSources_readF ha fun x => (s.setF rd (invSqrtDraw s.draws x * x)).useDraws 1

theorem exec_finvsqrti (ha : s.f[ra] = some a) : exec (.finvsqrti v rd ra rc) s =
    .next ((s.setF rd (sqrtRatioM1 1 a).2).setB rc (sqrtRatioM1 1 a).1).retire :=
  withSources_readF ha fun x => (s.setF rd (sqrtRatioM1 1 x).2).setB rc (sqrtRatioM1 1 x).1

theorem exec_fsqrti (ha : s.f[ra] = some a) : exec (.fsqrti v rd ra rc) s =
    .next ((s.setF rd ((sqrtRatioM1 1 a).2 * a)).setB rc (sqrtRatioM1 1 a).1).retire :=
  withSources_readF ha fun x => (s.setF rd ((sqrtRatioM1 1 x).2 * x)).setB rc (sqrtRatioM1 1 x).1

end

/-- Settles O24: each command's next state writes a field operation's result, whose integer is the residue. -/
theorem fieldAddSubMulResults : Obligations.FieldAddSubMulResults := by
  intro s v rd ra rb a b ha hb
  exact ⟨⟨_, _, exec_fadd v rd ha hb, onlyF_setF_retire .., Fin.val_add a b⟩,
    ⟨_, _, exec_fsub v rd ha hb, onlyF_setF_retire .., val_feSub_add_mod a b⟩,
    ⟨_, _, exec_fmul v rd ha hb, onlyF_setF_retire .., Fin.val_mul a b⟩⟩

/-- Settles O25: the same of the commands with one source. -/
theorem fieldOneSourceResults : Obligations.FieldOneSourceResults := by
  intro s v rd ra a ha
  exact ⟨⟨_, _, exec_fneg v rd ha, onlyF_setF_retire .., val_feNeg_add_mod a⟩,
    ⟨_, _, exec_fdbl v rd ha, onlyF_setF_retire .., val_feDouble a⟩,
    ⟨_, _, exec_ftrpl v rd ha, onlyF_setF_retire .., val_feTriple a⟩,
    ⟨_, _, exec_fsqr v rd ha, onlyF_setF_retire .., val_feSquare a⟩,
    ⟨_, _, exec_fsqr2 v rd ha, onlyF_setF_retire .., val_feSquare_double a⟩,
    ⟨_, _, exec_fabs v rd ha, onlyF_setF_retire .., isNegative_eq_false_iff.1 (isNegative_feAbs a), val_feAbs a⟩⟩

theorem feInv_mul_self {a : Fe} (h : a ≠ 0) : feInv a * a = 1 := by
  have : Fact (Nat.Prime fieldPrime) := ⟨fieldPrime_prime⟩
  have h' : inField a ≠ 0 := fun h0 => h (inField_inj.1 (h0.trans inField_zero.symm))
  rw [← inField_inj, inField_mul, inField_feInv, inField_one, inv_mul_cancel₀ h']

theorem feInv_zero : feInv 0 = 0 := by
  have : Fact (Nat.Prime fieldPrime) := ⟨fieldPrime_prime⟩
  rw [← inField_inj, inField_feInv, inField_zero, inv_zero]

/-- Settles O26: the two powers as integers, and the first as the inverse in Mathlib's field. -/
theorem fieldPowerResults : Obligations.FieldPowerResults := by
  intro s v rd ra a ha
  refine ⟨⟨_, _, exec_finv v rd ha, onlyF_setF_retire .., val_fePow a _ (by norm_num), feInv_mul_self, ?_⟩,
    ⟨_, _, exec_fpow2523 v rd ha, onlyF_setF_retire .., val_fePow a _ (by norm_num)⟩⟩
  rintro rfl
  exact feInv_zero

/-! ### Scalars -/

theorem exec_sinv {s : State} {ra : SReg} {a : Scalar} (v : Bool) (rd : SReg) (ha : s.sc[ra] = some a) :
    exec (.sinv v rd ra) s = .next (s.setS rd (scInv a)).retire :=
  withSources_readS ha fun x => s.setS rd (scInv x)

/-- Fermat's little theorem for scalars. -/
theorem scInv_mul_self {a : Scalar} (h : a ≠ 0) : scInv a * a = 1 := by
  have : Fact (Nat.Prime groupOrder) := ⟨groupOrder_prime⟩
  have hcast : (a.val : ZMod groupOrder) ≠ 0 := fun h0 => by
    have hdvd := (ZMod.natCast_eq_zero_iff a.val groupOrder).1 h0
    exact h (Fin.ext (Nat.eq_zero_of_dvd_of_lt hdvd a.isLt))
  have hpow : ((a.val ^ (groupOrder - 2) * a.val : Nat) : ZMod groupOrder) = ((1 : Nat) : ZMod groupOrder) := by
    rw [← pow_succ, show groupOrder - 2 + 1 = groupOrder - 1 by norm_num, Nat.cast_pow,
      ZMod.pow_card_sub_one_eq_one hcast, Nat.cast_one]
  rw [ZMod.natCast_eq_natCast_iff'] at hpow
  apply Fin.ext
  rw [Fin.val_mul, val_scInv, Nat.mod_mul_mod, hpow]
  rfl

theorem val_scInv_eq_zero {a : Scalar} (h : a.val = 0) : (scInv a).val = 0 := by
  have hpow : a.val ^ (groupOrder - 2) = 0 := (pow_eq_zero_iff (by norm_num)).2 h
  rw [val_scInv, hpow, Nat.zero_mod]

theorem scInv_zero : scInv 0 = 0 := Fin.ext (val_scInv_eq_zero rfl)

/-- Settles O35: the power as an integer, and Fermat's little theorem. -/
theorem scalarInverseResult : Obligations.ScalarInverseResult := by
  intro s v rd ra a ha
  refine ⟨_, _, exec_sinv v rd ha, onlyS_setS_retire .., val_scInv a, scInv_mul_self, ?_⟩
  rintro rfl
  exact scInv_zero

theorem length_scPack (a : Scalar) : (scPack a).length = 32 := length_leBytes _ _

/-- A scalar fits in 253 bits, so loading its bytes drops nothing. -/
theorem scUnpack_scPack (a : Scalar) : scUnpack (scPack a) = a := by
  have hfits : a.val < 2 ^ 253 := a.isLt.trans (by norm_num)
  have hint : leInt (scPack a) = a.val := leInt_leBytes _ _ (hfits.trans (by norm_num))
  apply Fin.ext
  rw [val_scUnpack, hint, Nat.mod_eq_of_lt hfits, Nat.mod_eq_of_lt a.isLt]

/-- Settles O37: the slot reads back the scalar's bytes. -/
theorem scalarRoundTrip : Obligations.ScalarRoundTrip := by
  intro s v rd ra slot a hslot ha
  refine ⟨_, _, exec_spack v hslot ha, exec_sunpack _ v rd hslot, ?_⟩
  rw [retire_dmemRead, dmemRead_dmemWrite_same _ _ (length_scPack a), scUnpack_scPack]
  exact onlyS_setS_retire ..

/-! ### Flags -/

theorem val_beq_zero {n : Nat} [NeZero n] (a : Fin n) : (a.val == 0) = decide (a = 0) := by
  rw [Bool.eq_iff_iff, beq_iff_eq, decide_eq_true_iff, Fin.val_eq_zero_iff]

theorem feIsOne_eq (a : Fe) : feIsOne a = decide (a = 1) := by
  rw [feIsOne, Bool.eq_iff_iff, beq_iff_eq, decide_eq_true_iff, Fin.ext_iff]
  rfl

theorem scIsOne_eq (a : Scalar) : scIsOne a = decide (a = 1) := by
  rw [scIsOne, Bool.eq_iff_iff, beq_iff_eq, decide_eq_true_iff, Fin.ext_iff]
  rfl

section
variable {s : State} {ra rb : Fin 16} (v : Bool) (rd : BReg)

theorem exec_fiszero {a : Fe} (ha : s.f[ra] = some a) :
    exec (.fiszero v rd ra) s = .next (s.setB rd (decide (a = 0))).retire := by
  rw [← val_beq_zero]
  exact withSources_readF ha fun x => s.setB rd (feIsZero x)

theorem exec_fisone {a : Fe} (ha : s.f[ra] = some a) :
    exec (.fisone v rd ra) s = .next (s.setB rd (decide (a = 1))).retire := by
  rw [← feIsOne_eq]
  exact withSources_readF ha fun x => s.setB rd (feIsOne x)

theorem exec_fisneg {a : Fe} (ha : s.f[ra] = some a) :
    exec (.fisneg v rd ra) s = .next (s.setB rd (decide (a.val % 2 = 1))).retire := by
  rw [← beq_eq_decide]
  exact withSources_readF ha fun x => s.setB rd (isNegative x)

theorem exec_fiseq {a b : Fe} (ha : s.f[ra] = some a) (hb : s.f[rb] = some b) :
    exec (.fiseq v rd ra rb) s = .next (s.setB rd (decide (a = b))).retire := by
  rw [← beq_eq_decide]
  exact withSources_both_readF ha hb fun p => s.setB rd (feIsEq p.1 p.2)

theorem exec_siszero {a : Scalar} (ha : s.sc[ra] = some a) :
    exec (.siszero v rd ra) s = .next (s.setB rd (decide (a = 0))).retire := by
  rw [← val_beq_zero]
  exact withSources_readS ha fun x => s.setB rd (scIsZero x)

theorem exec_sisone {a : Scalar} (ha : s.sc[ra] = some a) :
    exec (.sisone v rd ra) s = .next (s.setB rd (decide (a = 1))).retire := by
  rw [← scIsOne_eq]
  exact withSources_readS ha fun x => s.setB rd (scIsOne x)

theorem exec_seq {a b : Scalar} (ha : s.sc[ra] = some a) (hb : s.sc[rb] = some b) :
    exec (.seq v rd ra rb) s = .next (s.setB rd (decide (a = b))).retire := by
  rw [← beq_eq_decide]
  exact withSources_both_readS ha hb fun p => s.setB rd (scIsEq p.1 p.2)

theorem exec_geq {P Q : Pt} (hP : s.g[ra] = .point P) (hQ : s.g[rb] = .point Q) :
    exec (.geq v rd ra rb) s = .next (s.setB rd (ptGeq P Q)).retire :=
  withSources_both_readG hP hQ fun p => s.setB rd (ptGeq p.1 p.2)

theorem exec_gisneutral {P : Pt} (hP : s.g[ra] = .point P) :
    exec (.gisneutral v rd ra) s = .next (s.setB rd (ptIsNeutral P)).retire :=
  withSources_readG hP fun P => s.setB rd (ptIsNeutral P)

end

/-- Settles O30: each flag as the model computes it is the decision of its rule. -/
theorem fieldPredicateFlags : Obligations.FieldPredicateFlags := by
  intro s v rd ra rb a b ha hb
  exact ⟨⟨_, exec_fiszero v rd ha, onlyB_setB_retire ..⟩, ⟨_, exec_fisone v rd ha, onlyB_setB_retire ..⟩,
    ⟨_, exec_fisneg v rd ha, onlyB_setB_retire ..⟩, ⟨_, exec_fiseq v rd ha hb, onlyB_setB_retire ..⟩⟩

/-- Settles O36: the same of the scalar predicates. -/
theorem scalarPredicateFlags : Obligations.ScalarPredicateFlags := by
  intro s v rd ra rb a b ha hb
  exact ⟨⟨_, exec_siszero v rd ha, onlyB_setB_retire ..⟩, ⟨_, exec_sisone v rd ha, onlyB_setB_retire ..⟩,
    ⟨_, exec_seq v rd ha hb, onlyB_setB_retire ..⟩⟩

/-- `geq` is the OR of the two cross products (43_group.md R315). -/
theorem ptGeq_iff {P Q : Pt} : ptGeq P Q = true ↔ P.x * Q.y = Q.x * P.y ∨ P.x * Q.x = P.y * Q.y := by
  rw [ptGeq, Bool.or_eq_true, beq_iff_eq, beq_iff_eq]

theorem ptGeq_self (P : Pt) : ptGeq P P = true := ptGeq_iff.2 (.inl rfl)

/-- Equality with the neutral element is a vanishing coordinate. -/
theorem ptGeq_neutral_iff {P : Pt} : ptGeq P neutral = true ↔ P.x = 0 ∨ P.y = 0 := by
  rw [ptGeq_iff, neutral_x, neutral_y, mul_one, mul_one, zero_mul, mul_zero, eq_comm (a := (0 : Fe))]

/-- Settles O41: the flags of the two commands, by what `geq` decides. -/
theorem groupPredicateFlags : Obligations.GroupPredicateFlags := by
  intro s v rd ra rb P Q hP hQ
  refine ⟨⟨_, _, exec_geq v rd hP hQ, onlyB_setB_retire .., ptGeq_iff, ?_⟩,
    ⟨_, _, exec_gisneutral v rd hP, onlyB_setB_retire .., ptGeq_neutral_iff⟩⟩
  rintro rfl
  rw [hP] at hQ
  cases hQ
  exact ptGeq_self P

/-! ### Conditional moves -/

section
variable {s : State} {rd ra : Fin 16} (v : Bool) (rc : BReg)

theorem exec_fcmov {d a : Fe} (hd : s.f[rd] = some d) (ha : s.f[ra] = some a) :
    exec (.fcmov v rd ra rc) s = .next (s.setF rd (if s.b[rc] = true then a else d)).retire :=
  withSources_both_readF hd ha fun p => s.setF rd (ctSelect (s.getB rc) p.2 p.1)

theorem exec_scmov {d a : Scalar} (hd : s.sc[rd] = some d) (ha : s.sc[ra] = some a) :
    exec (.scmov v rd ra rc) s = .next (s.setS rd (if s.b[rc] = true then a else d)).retire :=
  withSources_both_readS hd ha fun p => s.setS rd (ctSelect (s.getB rc) p.2 p.1)

theorem exec_gcmov {d a : Pt} (hd : s.g[rd] = .point d) (ha : s.g[ra] = .point a) :
    exec (.gcmov v rd ra rc) s = .next (s.setG rd (.point (if s.b[rc] = true then a else d))).retire :=
  withSources_both_readG hd ha fun p => s.setG rd (.point (ctSelect (s.getB rc) p.2 p.1))

end

/-- Settles O31: each command's next state, with the frame of a retiring command. -/
theorem conditionalMovesSelect : Obligations.ConditionalMovesSelect := by
  intro s v rd ra rc
  exact ⟨fun d a hd ha => ⟨_, exec_fcmov v rc hd ha, onlyF_setF_retire ..⟩,
    fun d a hd ha => ⟨_, exec_scmov v rc hd ha, onlyS_setS_retire ..⟩,
    fun d a hd ha => ⟨_, exec_gcmov v rc hd ha, onlyG_setG_retire ..⟩⟩

/-! ### Group arithmetic -/

section
variable {s : State} {ra rb : Fin 16} {P Q : Pt} {k : Scalar} {t : Fe} (v : Bool) (rd : GReg)

theorem exec_gadd (hP : s.g[ra] = .point P) (hQ : s.g[rb] = .point Q) :
    exec (.gadd v rd ra rb) s = .next (s.setG rd (.point (ptAdd P Q))).retire :=
  withSources_both_readG hP hQ fun p => s.setG rd (.point (ptAdd p.1 p.2))

theorem exec_gdbl (hP : s.g[ra] = .point P) : exec (.gdbl v rd ra) s = .next (s.setG rd (.point (ptAdd P P))).retire :=
  withSources_readG hP fun P => s.setG rd (.point (ptDbl P))

theorem exec_gneg (hP : s.g[ra] = .point P) : exec (.gneg v rd ra) s = .next (s.setG rd (.point (ptNeg P))).retire :=
  withSources_readG hP fun P => s.setG rd (.point (ptNeg P))

theorem exec_gsmul (hP : s.g[ra] = .point P) (hk : s.sc[rb] = some k) :
    exec (.gsmul v rd ra rb) s = .next (s.setG rd (.point (ptMul k.val P))).retire :=
  withSources_both_readG_readS hP hk fun p => s.setG rd (.point (ptMul p.2.val p.1))

theorem exec_gsmulb (hk : s.sc[rb] = some k) :
    exec (.gsmulb v rd rb) s = .next (s.setG rd (.point (ptMul k.val basePoint))).retire :=
  withSources_readS hk fun k => s.setG rd (.point (ptMul k.val basePoint))

theorem exec_gelligator (ht : s.f[ra] = some t) :
    exec (.gelligator v rd ra) s = .next (s.setG rd (.point (elligator t))).retire :=
  withSources_readF ht fun t => s.setG rd (.point (elligator t))

end

/-- Settles O39: each command's next state, with the frame of a retiring command. -/
theorem groupCommandsComplete : Obligations.GroupCommandsComplete := by
  intro s v rd ra rb P Q k t
  exact ⟨fun hP hQ => ⟨_, exec_gadd v rd hP hQ, onlyG_setG_retire ..⟩,
    fun hP => ⟨_, exec_gdbl v rd hP, onlyG_setG_retire ..⟩, fun hP => ⟨_, exec_gneg v rd hP, onlyG_setG_retire ..⟩,
    fun hP hk => ⟨_, exec_gsmul v rd hP hk, onlyG_setG_retire ..⟩,
    fun hk => ⟨_, exec_gsmulb v rd hk, onlyG_setG_retire ..⟩, ⟨_, rfl, onlyG_setG_retire ..⟩,
    ⟨_, rfl, onlyG_setG_retire ..⟩, fun ht => ⟨_, exec_gelligator v rd ht, onlyG_setG_retire ..⟩⟩

/-! ### GMSM -/

/-- The terms that GMSM reads when every register of its range holds a value. -/
theorem readTerms_of_values {s : State} {n a b : Nat} {P : Nat → Pt} {c : Nat → Scalar}
    (h : ∀ k, k < n → s.g[Fin.ofNat 16 (a + k)] = .point (P k) ∧ s.sc[Fin.ofNat 16 (b + k)] = some (c k)) :
    s.readTerms a b n = .value ((List.range n).map fun k => (P k, c k)) := by
  induction n generalizing a b P c with
  | zero => rfl
  | succ n ih =>
    have hrest : s.readTerms (a + 1) (b + 1) n = .value ((List.range n).map fun k => (P (k + 1), c (k + 1))) :=
      ih fun k hk => by simpa only [Nat.add_assoc, Nat.add_comm 1 k] using h (k + 1) (by omega)
    obtain ⟨hg, hs⟩ : s.g[Fin.ofNat 16 a] = .point (P 0) ∧ s.sc[Fin.ofNat 16 b] = some (c 0) := h 0 (by omega)
    rw [readTerms_succ, hrest, readG_of_point hg, readS_of_some hs, List.range_succ_eq_map, List.map_cons, List.map_map]
    rfl

theorem exec_gmsm {s : State} (v : Bool) (rd : GReg) {ra : GReg} {rb : SReg} {n : BitVec 8} {ts : List (Pt × Scalar)}
    (hcount : countInRange ra rb n = true) (hts : s.readTerms ra.val rb.val n.toNat = .value ts) :
    exec (.gmsm v rd ra rb n) s = .next (s.setG rd (.point (ptMulSum ts))).retire := by
  show execGmsm v rd ra rb n s = _
  rw [execGmsm, hcount, checkRange_true, hts, withSources_value]

/-- The sum of the terms from term k on. -/
def sumFrom (ts : List (Pt × Scalar)) (k : Nat) : Pt := ptMulSum (ts.drop k)

theorem sumFrom_last (ts : List (Pt × Scalar)) {k : Nat} (h : k + 1 = ts.length) :
    sumFrom ts k = ptMul (ts[k]).2.val (ts[k]).1 := by
  rw [sumFrom, List.drop_eq_getElem_cons (by omega), h, List.drop_length, ptMulSum]

theorem sumFrom_step (ts : List (Pt × Scalar)) {k : Nat} (h : k + 1 < ts.length) :
    sumFrom ts k = ptAdd (ptMul (ts[k]).2.val (ts[k]).1) (sumFrom ts (k + 1)) := by
  rw [sumFrom, List.drop_eq_getElem_cons (by omega), sumFrom, List.drop_eq_getElem_cons h, ptMulSum]

/-- Settles O40: the terms read are the registers' values, and their sum obeys its recursion. -/
theorem multiScalarMultiplicationSumsItsTerms : Obligations.MultiScalarMultiplicationSumsItsTerms := by
  intro s v rd ra rb n P c hn hra hrb h
  have hcount : countInRange ra rb n = true := by simp [countInRange, hn, hra, hrb]
  refine ⟨_, sumFrom ((List.range n.toNat).map fun k => (P k, c k)), exec_gmsm v rd hcount (readTerms_of_values h),
    onlyG_setG_retire .., ?last, fun k hk => ?step, rfl⟩
  case last =>
    rw [sumFrom_last _ (by simp; omega)]
    simp
  case step =>
    rw [sumFrom_step _ (by simpa using hk)]
    simp

/-! ### GPACK -/

theorem exec_gpack {s : State} (v : Bool) {ra : GReg} {slot : BitVec 8} {P : Pt} (h : slot.toNat ≤ 63)
    (hP : s.g[ra] = .point P) : exec (.gpack v ra slot) s = .next (s.dmemWrite slot (ristrettoEncode P)).retire := by
  show execGpack v ra slot s = _
  rw [execGpack, slotInRange_of_le h, checkRange_true, withSources_readG hP]

theorem leInt_fePack (a : Fe) : leInt (fePack a) = a.val :=
  leInt_leBytes _ _ (a.isLt.trans (by norm_num))

/-- An encoding is the canonical bytes of a nonnegative field value. -/
theorem exists_ristrettoEncode_eq (P : Pt) : ∃ e : Fe, isNegative e = false ∧ ristrettoEncode P = fePack e :=
  ⟨_, isNegative_feAbs _, rfl⟩

/-- Settles O43: what GPACK stores are the bytes of a canonical nonnegative value. -/
theorem groupPackStoresTheEncoding : Obligations.GroupPackStoresTheEncoding := by
  intro s v ra slot P hslot hP
  obtain ⟨e, he, hbytes⟩ := exists_ristrettoEncode_eq P
  refine ⟨_, e.val, exec_gpack v hslot hP, ?_, ?_, e.isLt, isNegative_eq_false_iff.1 he⟩
  · rw [hbytes]
    exact onlySlot_dmemWrite_retire s slot e.val
  · rw [hbytes, leInt_fePack]

end Sys2Proof.Machine
end

section
/-! Square roots: SQRT_RATIO_M1 meets its four cases, and the commands that take roots by it (41_field.md R195, R212 to
R215). -/

-- One theorem after another: many at once exceed the memory that check.sh allows for threads.
set_option Elab.async false

namespace Sys2Proof.Machine

open Safety

/-! ### Squares in Mathlib's field -/

theorem fieldPrime_fact : Fact (Nat.Prime fieldPrime) := ⟨fieldPrime_prime⟩

theorem inField_eq_zero_iff {x : Fe} : inField x = 0 ↔ x = 0 := by
  rw [← inField_zero, inField_inj]

theorem inField_surjective (k : ZMod fieldPrime) : ∃ x : Fe, inField x = k :=
  ⟨⟨k.val, ZMod.val_lt k⟩, ZMod.natCast_zmod_val k⟩

theorem two_ne_zero_inField : (2 : ZMod fieldPrime) ≠ 0 := by
  intro h
  refine one_ne_neg_one_inField ?_
  rw [eq_neg_iff_add_eq_zero, one_add_one_eq_two, h]

/-- Euler's criterion, for a value whose power is computed. -/
theorem not_isSquare_inField {a : Fe} (h : fePow a (fieldPrime / 2) = -1) : ¬IsSquare (inField a) := by
  have := fieldPrime_fact
  have hpow : inField a ^ (fieldPrime / 2) = -1 := by
    rw [← inField_fePow _ _ (by norm_num), h, inField_neg, inField_one]
  have hne : inField a ≠ 0 := fun h0 => by
    rw [h0, zero_pow (by norm_num)] at hpow
    exact neg_ne_zero.2 one_ne_zero hpow.symm
  rw [ZMod.euler_criterion fieldPrime hne, hpow]
  exact one_ne_neg_one_inField.symm

/-- The root of -1 is no square: p is 5 modulo 8. -/
theorem not_isSquare_inField_sqrtM1 : ¬IsSquare (inField sqrtM1) :=
  not_isSquare_inField (by decide +kernel)

/-- Two nonnegative values with one square are equal: a value and its negation differ in sign. -/
theorem eq_of_sq_eq {x y : Fe} (hx : isNegative x = false) (hy : isNegative y = false)
    (h : inField x ^ 2 = inField y ^ 2) : x = y := by
  have := fieldPrime_fact
  obtain h | h := sq_eq_sq_iff_eq_or_eq_neg.1 h
  · exact inField_inj.1 h
  · rw [← inField_neg, inField_inj] at h
    by_cases h0 : y = 0
    · rw [h, h0]
      rfl
    · rw [h, isNegative_neg h0, hy] at hx
      cases hx

/-- The absolute value has the same square. -/
theorem inField_feAbs_sq (x : Fe) : inField (feAbs x) ^ 2 = inField x ^ 2 := by
  cases h : isNegative x with
  | true => rw [feAbs_of_isNegative h, inField_neg, neg_sq]
  | false => rw [feAbs_of_nonneg h]

/-- The absolute value is the nonnegative one of a value and its negation. -/
theorem feAbs_eq_of_sq_eq {x y : Fe} (hy : isNegative y = false) (h : inField x ^ 2 = inField y ^ 2) : feAbs x = y :=
  eq_of_sq_eq (isNegative_feAbs x) hy ((inField_feAbs_sq x).trans h)

/-! ### SQRT_RATIO_M1 -/

/-- The first candidate for a root of u/v (41_field.md R195). -/
def rootCandidate (u v : Fe) : Fe :=
  u * (v * v * v) * fePow (u * (v * v * v * (v * v * v) * v)) ((fieldPrime - 5) / 8)

/-- SQRT_RATIO_M1 from its candidate. -/
theorem sqrtRatioM1_eq (u v : Fe) : sqrtRatioM1 u v =
    (v * (rootCandidate u v * rootCandidate u v) == u || v * (rootCandidate u v * rootCandidate u v) == -u,
      feAbs (ctSelect (v * (rootCandidate u v * rootCandidate u v) == -u ||
        v * (rootCandidate u v * rootCandidate u v) == -u * sqrtM1) (rootCandidate u v * sqrtM1) (rootCandidate u v))) :=
  rfl

theorem isNegative_sqrtRatioM1 (u v : Fe) : isNegative (sqrtRatioM1 u v).2 = false := by
  rw [sqrtRatioM1_eq]
  simp only [isNegative_feAbs]

section
variable {u v : Fe}

theorem inField_rootCandidate (u v : Fe) : inField (rootCandidate u v) =
    inField u * inField v ^ 3 * (inField u * inField v ^ 7) ^ ((fieldPrime - 5) / 8) := by
  have hv3 : inField (v * v * v) = inField v ^ 3 := by
    simp only [inField_mul]
    ring
  have hv7 : inField (v * v * v * (v * v * v) * v) = inField v ^ 7 := by
    simp only [inField_mul]
    ring
  rw [rootCandidate, inField_mul, inField_mul, inField_fePow _ _ (by norm_num), inField_mul u, hv3, hv7]

/-- The candidate's square misses u/v by a fourth root of 1. -/
theorem rootCandidate_sq (hu : u ≠ 0) (hv : v ≠ 0) : ∃ w : ZMod fieldPrime, w ^ 4 = 1 ∧
    inField v * inField (rootCandidate u v) ^ 2 = inField u * w := by
  have := fieldPrime_fact
  have hne : inField u * inField v ^ 7 ≠ 0 := by
    refine mul_ne_zero ?_ (pow_ne_zero 7 ?_) <;> rwa [Ne, inField_eq_zero_iff]
  have hcard : ((fieldPrime - 5) / 8 * 2 + 1) * 4 = fieldPrime - 1 := by norm_num
  have hcand := inField_rootCandidate u v
  generalize (fieldPrime - 5) / 8 = e at hcard hcand
  refine ⟨(inField u * inField v ^ 7) ^ (e * 2 + 1), ?_, ?_⟩
  · rw [← pow_mul, hcard]
    exact ZMod.pow_card_sub_one_eq_one hne
  · rw [hcand, pow_succ _ (e * 2), pow_mul]
    ring

/-- The four fourth roots of 1. -/
theorem fourth_root_cases {w : ZMod fieldPrime} (h : w ^ 4 = 1) :
    w = 1 ∨ w = -1 ∨ w = inField sqrtM1 ∨ w = -inField sqrtM1 := by
  have := fieldPrime_fact
  have hi := inField_sqrtM1_sq
  have hprod : (w - 1) * ((w + 1) * ((w - inField sqrtM1) * (w + inField sqrtM1))) = 0 := by
    linear_combination h - (w ^ 2 - 1) * hi
  obtain h | h := mul_eq_zero.1 hprod
  · exact .inl (sub_eq_zero.1 h)
  obtain h | h := mul_eq_zero.1 h
  · exact .inr (.inl (eq_neg_of_add_eq_zero_left h))
  obtain h | h := mul_eq_zero.1 h
  · exact .inr (.inr (.inl (sub_eq_zero.1 h)))
  · exact .inr (.inr (.inr (eq_neg_of_add_eq_zero_left h)))

/-- The four are distinct. -/
theorem sqrtM1_ne_signs : inField sqrtM1 ≠ 1 ∧ inField sqrtM1 ≠ -1 ∧ inField sqrtM1 ≠ -inField sqrtM1 := by
  have := fieldPrime_fact
  have hi := inField_sqrtM1_sq
  refine ⟨fun h => ?_, fun h => ?_, fun h => ?_⟩ <;> refine one_ne_neg_one_inField ?_
  · linear_combination hi - (inField sqrtM1 + 1) * h
  · linear_combination hi - (inField sqrtM1 - 1) * h
  · linear_combination 2 * hi - inField sqrtM1 * h

/-- Multiples of one nonzero value are equal when their factors are. -/
theorem beq_eq_decide_of_mul {x y : Fe} {w w' : ZMod fieldPrime} (hu : u ≠ 0) (hx : inField x = inField u * w)
    (hy : inField y = inField u * w') : (x == y) = decide (w = w') := by
  have := fieldPrime_fact
  have hu' : inField u ≠ 0 := by rwa [Ne, inField_eq_zero_iff]
  rw [Bool.eq_iff_iff, beq_iff_eq, decide_eq_true_iff, ← inField_inj, hx, hy, mul_right_inj' hu']

/-- SQRT_RATIO_M1 by the fourth root of 1 that the candidate's square misses u/v by. -/
theorem sqrtRatioM1_of_candidate {w : ZMod fieldPrime} (hu : u ≠ 0)
    (h : inField v * inField (rootCandidate u v) ^ 2 = inField u * w) : sqrtRatioM1 u v =
      (decide (w = 1) || decide (w = -1), feAbs (ctSelect (decide (w = -1) || decide (w = -inField sqrtM1))
        (rootCandidate u v * sqrtM1) (rootCandidate u v))) := by
  have hcheck : inField (v * (rootCandidate u v * rootCandidate u v)) = inField u * w := by
    rw [← h, inField_mul, inField_mul, pow_two]
  rw [sqrtRatioM1_eq, beq_eq_decide_of_mul hu hcheck (w' := 1) (by simp),
    beq_eq_decide_of_mul hu hcheck (w' := -1) (by simp),
    beq_eq_decide_of_mul hu hcheck (w' := -inField sqrtM1) (by simp)]

/-- The root of a nonzero ratio: a root of u/v with flag 1, or a root of SQRT_M1*u/v with flag 0. -/
theorem sqrtRatioM1_of_ne_zero (hu : u ≠ 0) (hv : v ≠ 0) :
    ((sqrtRatioM1 u v).1 = true ∧ inField v * inField (sqrtRatioM1 u v).2 ^ 2 = inField u) ∨
      ((sqrtRatioM1 u v).1 = false ∧ inField v * inField (sqrtRatioM1 u v).2 ^ 2 = inField sqrtM1 * inField u) := by
  have := fieldPrime_fact
  have hi := inField_sqrtM1_sq
  obtain ⟨h1, h2, h3⟩ := sqrtM1_ne_signs
  have h4 := one_ne_neg_one_inField
  obtain ⟨w, hw, hcheck⟩ := rootCandidate_sq hu hv
  have hroot : inField v * inField (rootCandidate u v * sqrtM1) ^ 2 = -(inField u * w) := by
    rw [inField_mul, mul_pow, hi, ← hcheck]
    ring
  rw [sqrtRatioM1_of_candidate hu hcheck, inField_feAbs_sq]
  obtain rfl | rfl | rfl | rfl := fourth_root_cases hw
  · have h5 : (1 : ZMod fieldPrime) ≠ -inField sqrtM1 := fun h => h2 (neg_eq_iff_eq_neg.1 h.symm)
    simp only [h4, h5, decide_true, decide_false, Bool.or_false, ctSelect]
    exact .inl ⟨trivial, hcheck.trans (mul_one _)⟩
  · simp only [h4.symm, decide_true, decide_false, Bool.false_or, Bool.true_or, ctSelect]
    exact .inl ⟨trivial, hroot.trans (by ring)⟩
  · simp only [h1, h2, h3, decide_false, Bool.or_false, ctSelect]
    exact .inr ⟨trivial, hcheck.trans (mul_comm _ _)⟩
  · have h5 : -inField sqrtM1 ≠ 1 := fun h => h2 (neg_eq_iff_eq_neg.1 h)
    have h6 : -inField sqrtM1 ≠ -1 := fun h => h1 (neg_inj.1 h)
    simp only [h5, h6, decide_true, decide_false, Bool.or_false, Bool.or_true, ctSelect]
    exact .inr ⟨trivial, hroot.trans (by ring)⟩

theorem sqrtRatioM1_of_candidate_eq_zero (h : rootCandidate u v = 0) : sqrtRatioM1 u v = (decide (u = 0), 0) := by
  have hneg : -u = 0 ↔ u = 0 := by rw [← inField_inj, inField_neg, inField_zero, neg_eq_zero, inField_eq_zero_iff]
  have habs : feAbs (0 : Fe) = 0 := rfl
  rw [sqrtRatioM1_eq, h, mul_zero, mul_zero, zero_mul, ctSelect, ite_self, habs]
  simp only [beq_eq_decide, eq_comm (a := (0 : Fe)), hneg, Bool.or_self]

theorem sqrtRatioM1_zero_left (v : Fe) : sqrtRatioM1 0 v = (true, 0) := by
  rw [sqrtRatioM1_of_candidate_eq_zero (by rw [rootCandidate, zero_mul, zero_mul])]
  rfl

theorem sqrtRatioM1_zero_right (hu : u ≠ 0) : sqrtRatioM1 u 0 = (false, 0) := by
  rw [sqrtRatioM1_of_candidate_eq_zero (by rw [rootCandidate, mul_zero, mul_zero, zero_mul]), decide_eq_false hu]

/-- A root of u/v excludes one of SQRT_M1*u/v: their quotient would be a root of SQRT_M1. -/
theorem no_root_of_twisted_root {r x : ZMod fieldPrime} (hu : u ≠ 0)
    (hr : inField v * r ^ 2 = inField sqrtM1 * inField u) : inField v * x ^ 2 ≠ inField u := by
  have := fieldPrime_fact
  intro hx
  have hv : inField v ≠ 0 := fun h => hu (by rw [← inField_eq_zero_iff, ← hx, h, zero_mul])
  have hx0 : x ≠ 0 := fun h => hu (by rw [← inField_eq_zero_iff, ← hx, h]; ring)
  refine not_isSquare_inField_sqrtM1 ⟨r / x, ?_⟩
  have hsq : inField v * (inField sqrtM1 * x ^ 2) = inField v * r ^ 2 := by
    rw [hr, ← hx]
    ring
  have := mul_left_cancel₀ hv hsq
  field_simp
  exact this

/-- The flag of SQRT_RATIO_M1 says whether u/v is a square. -/
theorem sqrtRatioM1_flag_iff (hu : u ≠ 0) (hv : v ≠ 0) :
    (sqrtRatioM1 u v).1 = true ↔ ∃ x : Fe, v * (x * x) = u := by
  have hroot {x : Fe} : v * (x * x) = u ↔ inField v * inField x ^ 2 = inField u := by
    rw [← inField_inj, inField_mul, inField_mul, pow_two]
  simp only [hroot]
  obtain ⟨hflag, hr⟩ | ⟨hflag, hr⟩ := sqrtRatioM1_of_ne_zero hu hv
  · exact ⟨fun _ => ⟨_, hr⟩, fun _ => hflag⟩
  · refine ⟨fun h => by simp [hflag] at h, fun ⟨x, hx⟩ => ?_⟩
    exact absurd hx (no_root_of_twisted_root hu hr)

/-- The root of SQRT_RATIO_M1 for each flag. -/
theorem sqrtRatioM1_root (hu : u ≠ 0) (hv : v ≠ 0) : inField v * inField (sqrtRatioM1 u v).2 ^ 2 =
    if (sqrtRatioM1 u v).1 then inField u else inField sqrtM1 * inField u := by
  obtain ⟨hflag, hr⟩ | ⟨hflag, hr⟩ := sqrtRatioM1_of_ne_zero hu hv <;> rw [hflag, hr]
  · rfl
  · rfl

/-- A nonnegative root of x/v is the only one. -/
theorem nonneg_root_iff {x r z : Fe} (hv : v ≠ 0) (hr : isNegative r = false)
    (hroot : inField v * inField r ^ 2 = inField x) :
    (v * (z * z) = x ∧ z.val % 2 = 0) ↔ z = r := by
  have := fieldPrime_fact
  have hv' : inField v ≠ 0 := by rwa [Ne, inField_eq_zero_iff]
  rw [← isNegative_eq_false_iff, ← inField_inj, inField_mul, inField_mul, ← pow_two, ← hroot, mul_right_inj' hv']
  constructor
  · rintro ⟨hsq, hz⟩
    exact eq_of_sq_eq hz hr hsq
  · rintro rfl
    exact ⟨rfl, hr⟩

end

theorem eq_mk_of_fst_eq {α β : Type} {p : α × β} {a : α} (h : p.1 = a) : p = (a, p.2) := by
  rw [← h]

/-- Settles O29: two zero cases by the candidate, two by the flag and the root. -/
theorem sqrtRatioCases : Obligations.SqrtRatioCases := by
  intro u v
  refine ⟨?_, ?_, fun hu hv hex => ⟨(sqrtRatioM1 u v).2, ?_, fun z => ?_⟩,
    fun hu hv hno => ⟨(sqrtRatioM1 u v).2, ?_, fun z => ?_⟩⟩
  · rintro rfl
    exact sqrtRatioM1_zero_left v
  · rintro hu rfl
    exact sqrtRatioM1_zero_right hu
  · exact eq_mk_of_fst_eq ((sqrtRatioM1_flag_iff hu hv).2 hex)
  · refine nonneg_root_iff hv (isNegative_sqrtRatioM1 u v) ?_
    rw [sqrtRatioM1_root hu hv, if_pos ((sqrtRatioM1_flag_iff hu hv).2 hex)]
  · exact eq_mk_of_fst_eq (Bool.eq_false_iff.2 fun h => hno ((sqrtRatioM1_flag_iff hu hv).1 h))
  · refine nonneg_root_iff hv (isNegative_sqrtRatioM1 u v) ?_
    rw [sqrtRatioM1_root hu hv, if_neg fun h => hno ((sqrtRatioM1_flag_iff hu hv).1 h), inField_mul]

/-! ### Inverse square roots -/

theorem one_ne_zero_fe : (1 : Fe) ≠ 0 := by decide

section
variable {a : Fe}

/-- Of 1 and `a`: 1/a is a square when `a` is one. -/
theorem invSqrt_flag_iff (ha : a ≠ 0) : (sqrtRatioM1 1 a).1 = true ↔ ∃ y : Fe, y * y = a := by
  have := fieldPrime_fact
  rw [sqrtRatioM1_flag_iff one_ne_zero_fe ha]
  have ha' : inField a ≠ 0 := by rwa [Ne, inField_eq_zero_iff]
  constructor
  · rintro ⟨x, hx⟩
    obtain ⟨y, hy⟩ := inField_surjective (inField a * inField x)
    refine ⟨y, ?_⟩
    rw [← inField_inj, inField_mul, inField_mul, inField_one] at hx
    rw [← inField_inj, inField_mul, hy]
    linear_combination inField a * hx
  · rintro ⟨y, rfl⟩
    obtain ⟨x, hx⟩ := inField_surjective (inField y)⁻¹
    refine ⟨x, ?_⟩
    rw [inField_mul] at ha'
    have hy := left_ne_zero_of_mul ha'
    rw [← inField_inj, inField_mul, inField_mul, inField_mul, hx, inField_one]
    field_simp

/-- The root that FINVSQRTI writes, by its flag. -/
theorem invSqrt_root (ha : a ≠ 0) : (sqrtRatioM1 1 a).2 * (sqrtRatioM1 1 a).2 * a =
    if (sqrtRatioM1 1 a).1 then 1 else sqrtM1 := by
  have hroot := sqrtRatioM1_root one_ne_zero_fe ha
  rw [inField_one, mul_one] at hroot
  rw [← inField_inj, inField_mul, inField_mul, ← pow_two, mul_comm, hroot]
  split
  · exact inField_one.symm
  · rfl

/-- Euler's criterion as the model computes it finds every nonzero square. -/
theorem isNonzeroSquare_of_square (ha : a ≠ 0) (h : ∃ x : Fe, x * x = a) : isNonzeroSquare a = true := by
  have := fieldPrime_fact
  obtain ⟨x, rfl⟩ := h
  have hx : inField x ≠ 0 := fun h0 => ha (by rw [← inField_eq_zero_iff, inField_mul, h0, zero_mul])
  have hpow : fePow (x * x) ((fieldPrime - 1) / 2) = 1 := by
    have hcard : 2 * ((fieldPrime - 1) / 2) = fieldPrime - 1 := by norm_num
    rw [← inField_inj, inField_fePow _ _ (by norm_num), inField_mul, ← pow_two, ← pow_mul, hcard,
      ZMod.pow_card_sub_one_eq_one hx, inField_one]
  rw [isNonzeroSquare, hpow, bne_iff_ne.2 ha]
  rfl

/-- Either root of 1/a that a draw chooses is a root of 1/a. -/
theorem invSqrtDraw_root (n : Nat) (ha : a ≠ 0) (h : ∃ x : Fe, x * x = a) :
    invSqrtDraw n a * invSqrtDraw n a * a = 1 := by
  have hroot : (sqrtRatioM1 1 a).2 * (sqrtRatioM1 1 a).2 * a = 1 := by
    rw [invSqrt_root ha, if_pos ((invSqrt_flag_iff ha).2 h)]
  rw [invSqrtDraw, if_pos (isNonzeroSquare_of_square ha h)]
  cases Config.draw 1 n == 1 with
  | true =>
    have hneg (r : Fe) : -r * -r * a = r * r * a := by
      rw [← inField_inj]
      simp only [inField_mul, inField_neg]
      ring
    exact (hneg _).trans hroot
  | false => exact hroot

/-- An inverse root of a nonzero square, times the square, is a root of it. -/
theorem mul_self_of_invSqrt {r : Fe} (h : r * r * a = 1) : r * a * (r * a) = a := by
  rw [← inField_inj] at h ⊢
  simp only [inField_mul, inField_one] at h ⊢
  linear_combination inField a * h

end

/-- Settles O27: a draw chooses between the two inverse roots, and a zero source is a factor of what FSQRT writes. -/
theorem squareRootDrawsAreRoots : Obligations.SquareRootDrawsAreRoots := by
  intro s v rd ra a ha
  refine ⟨_, _, _, _, exec_finvsqrt v rd ha, onlyFDraw_setF_useDraws_retire .., exec_fsqrt v rd ha,
    onlyFDraw_setF_useDraws_retire .., fun ha0 h => invSqrtDraw_root s.draws ha0 h, fun h => ?_, ?_⟩
  · by_cases ha0 : a = 0
    · rw [ha0, mul_zero, mul_zero]
    · exact mul_self_of_invSqrt (invSqrtDraw_root s.draws ha0 h)
  · rintro rfl
    exact mul_zero _

/-- Settles O28: the flag and the root of SQRT_RATIO_M1 for u = 1. -/
theorem squareRootsWithFlag : Obligations.SquareRootsWithFlag := by
  intro s v rd ra rc a ha
  refine ⟨_, _, _, _, exec_finvsqrti v rd rc ha, onlyFB_setF_setB_retire .., exec_fsqrti v rd rc ha,
    onlyFB_setF_setB_retire .., ?_, isNegative_eq_false_iff.1 (isNegative_sqrtRatioM1 1 a), fun hflag => ?_,
    fun hflag ha0 => ?_, ?_⟩
  · by_cases ha0 : a = 0
    · rw [ha0, sqrtRatioM1_zero_right one_ne_zero_fe]
      simp
    · rw [invSqrt_flag_iff ha0, and_iff_right ha0]
  · have ha0 : a ≠ 0 := by
      rintro rfl
      rw [sqrtRatioM1_zero_right one_ne_zero_fe] at hflag
      cases hflag
    rw [invSqrt_root ha0, if_pos hflag]
  · rw [invSqrt_root ha0, hflag]
    rfl
  · rintro rfl
    rw [sqrtRatioM1_zero_right one_ne_zero_fe]

end Sys2Proof.Machine
end

section
/-! The twisted Edwards curve over any field in which -1 is a square and D is not: the law of addition is complete and
closed, and `1 + D*y^2`, whose squareness marks the doubles, is multiplicative up to squares (43_group.md R310, R311, R313,
R348). -/

-- One theorem after another: many at once exceed the memory that check.sh allows for threads.
set_option Elab.async false

namespace Sys2Proof.Edwards

variable {K : Type*} [Field K] {d i x₁ y₁ x₂ y₂ x y : K}

/-- The curve equation. -/
def On {R : Type*} [CommRing R] (d x y : R) : Prop := y ^ 2 - x ^ 2 = 1 + d * x ^ 2 * y ^ 2

/-- If a denominator of a sum vanished, D would be a square, but for a factor that vanishes too. -/
theorem mul_add_eq_zero (hi : i ^ 2 = -1) (hd : ¬IsSquare d) (h₁ : On d x₁ y₁) (h₂ : On d x₂ y₂)
    (hk : (d * x₁ * x₂ * y₁ * y₂) ^ 2 = 1) : i * x₂ + y₂ = 0 := by
  rw [On] at h₁ h₂
  by_contra hne
  have hx : x₁ ≠ 0 := by rintro rfl; simp at hk
  have hy : y₁ ≠ 0 := by rintro rfl; simp at hk
  have hroot : d * (x₁ * y₁ * (i * x₂ + y₂)) ^ 2 = (i * x₁ + d * x₁ * x₂ * y₁ * y₂ * y₁) ^ 2 := by
    linear_combination (d * x₁ ^ 2 * y₁ ^ 2 * x₂ ^ 2 - x₁ ^ 2) * hi + d * x₁ ^ 2 * y₁ ^ 2 * h₂ + (1 - y₁ ^ 2) * hk - h₁
  refine hd ⟨(i * x₁ + d * x₁ * x₂ * y₁ * y₂ * y₁) / (x₁ * y₁ * (i * x₂ + y₂)), ?_⟩
  rw [← pow_two, div_pow, eq_div_iff (pow_ne_zero 2 (mul_ne_zero (mul_ne_zero hx hy) hne)), hroot]

/-- The denominators of a sum do not vanish. -/
theorem denominators_ne_zero (h2 : (2 : K) ≠ 0) (hi : i ^ 2 = -1) (hd : ¬IsSquare d) (h₁ : On d x₁ y₁) (h₂ : On d x₂ y₂) :
    1 + d * x₁ * x₂ * y₁ * y₂ ≠ 0 ∧ 1 - d * x₁ * x₂ * y₁ * y₂ ≠ 0 := by
  have hk : (d * x₁ * x₂ * y₁ * y₂) ^ 2 ≠ 1 := fun hk => by
    have hplus := mul_add_eq_zero hi hd h₁ h₂ hk
    have hminus := mul_add_eq_zero (i := -i) (by rwa [neg_sq]) hd h₁ h₂ hk
    have hy : 2 * y₂ = 0 := by linear_combination hplus + hminus
    rw [(mul_eq_zero.1 hy).resolve_left h2] at hk
    simp at hk
  exact ⟨fun h => hk (by linear_combination (d * x₁ * x₂ * y₁ * y₂ - 1) * h),
    fun h => hk (by linear_combination (-1 - d * x₁ * x₂ * y₁ * y₂) * h)⟩

/-- The curve equation of a sum, with its denominators cleared. -/
theorem on_numerators (h₁ : On d x₁ y₁) (h₂ : On d x₂ y₂) :
    (y₁ * y₂ + x₁ * x₂) ^ 2 * (1 + d * x₁ * x₂ * y₁ * y₂) ^ 2 - (x₁ * y₂ + y₁ * x₂) ^ 2 * (1 - d * x₁ * x₂ * y₁ * y₂) ^ 2 =
      (1 - d * x₁ * x₂ * y₁ * y₂) ^ 2 * (1 + d * x₁ * x₂ * y₁ * y₂) ^ 2 +
        d * (x₁ * y₂ + y₁ * x₂) ^ 2 * (y₁ * y₂ + x₁ * x₂) ^ 2 := by
  rw [On] at h₁ h₂
  grind

/-- The sum of two points of the curve lies on it. -/
theorem on_add (h₁ : On d x₁ y₁) (h₂ : On d x₂ y₂)
    (hx : x * (1 + d * x₁ * x₂ * y₁ * y₂) = x₁ * y₂ + y₁ * x₂) (hy : y * (1 - d * x₁ * x₂ * y₁ * y₂) = y₁ * y₂ + x₁ * x₂)
    (hp : 1 + d * x₁ * x₂ * y₁ * y₂ ≠ 0) (hm : 1 - d * x₁ * x₂ * y₁ * y₂ ≠ 0) : On d x y := by
  have hnum := on_numerators h₁ h₂
  rw [← hx, ← hy] at hnum
  have hden := mul_ne_zero (pow_ne_zero 2 hp) (pow_ne_zero 2 hm)
  rw [On]
  refine mul_right_cancel₀ hden ?_
  linear_combination hnum

/-- On the curve 1 + D*y^2 is nonzero. -/
theorem one_add_ne_zero (hi : i ^ 2 = -1) (hd : ¬IsSquare d) (y : K) : 1 + d * y ^ 2 ≠ 0 := by
  intro h
  have hy : y ≠ 0 := by rintro rfl; simp at h
  refine hd ⟨i / y, ?_⟩
  field_simp
  linear_combination h - hi

/-- On the curve 1 - y^2 is a square when 1 + D*y^2 is, and conversely: they differ by the factor -x^2, and 1 + D is a
square. -/
theorem isSquare_one_sub_iff (hi : i ^ 2 = -1) (hd₁ : IsSquare (1 + d)) (h : On d x y) :
    IsSquare (1 - y ^ 2) ↔ IsSquare (1 + d * y ^ 2) := by
  rw [On] at h
  have hfactor : 1 - y ^ 2 = (i * x) ^ 2 * (1 + d * y ^ 2) := by linear_combination -h - x ^ 2 * (1 + d * y ^ 2) * hi
  rw [hfactor]
  by_cases hx : x = 0
  · subst hx
    have hy : y ^ 2 = 1 := by linear_combination h
    simpa [hy] using hd₁
  · have hi0 : i ≠ 0 := by rintro rfl; simp at hi
    constructor
    · intro hsq
      have hdiv := hsq.div (IsSquare.sq (i * x))
      rwa [mul_div_cancel_left₀ _ (pow_ne_zero 2 (mul_ne_zero hi0 hx))] at hdiv
    · exact (IsSquare.sq (i * x)).mul

/-- At a sum, 1 + D*y^2 is a square when the product of its values at the terms is. -/
theorem isSquare_one_add_of_add (hi : i ^ 2 = -1) (hd : ¬IsSquare d) (hd₁ : IsSquare (1 + d)) (h₁ : On d x₁ y₁)
    (h₂ : On d x₂ y₂) (hy : y * (1 - d * x₁ * x₂ * y₁ * y₂) = y₁ * y₂ + x₁ * x₂) (hm : 1 - d * x₁ * x₂ * y₁ * y₂ ≠ 0)
    (hsq : IsSquare ((1 + d * y₁ ^ 2) * (1 + d * y₂ ^ 2))) : IsSquare (1 + d * y ^ 2) := by
  rw [On] at h₁ h₂
  have hx₁ : (1 + d * y₁ ^ 2) * x₁ ^ 2 = y₁ ^ 2 - 1 := by linear_combination -h₁
  have hx₂ : (1 + d * y₂ ^ 2) * x₂ ^ 2 = y₂ ^ 2 - 1 := by linear_combination -h₂
  have hsum : (1 + d * y ^ 2) * (1 - d * x₁ * x₂ * y₁ * y₂) ^ 2 =
      (1 + d * x₁ ^ 2 * x₂ ^ 2) * (1 + d * y₁ ^ 2 * y₂ ^ 2) := by
    linear_combination d * (y * (1 - d * x₁ * x₂ * y₁ * y₂) + (y₁ * y₂ + x₁ * x₂)) * hy
  have hprod : (1 + d * x₁ ^ 2 * x₂ ^ 2) * ((1 + d * y₁ ^ 2) * (1 + d * y₂ ^ 2)) =
      (1 + d) * (1 + d * y₁ ^ 2 * y₂ ^ 2) := by
    linear_combination d * ((1 + d * y₂ ^ 2) * x₂ ^ 2 * hx₁ + (y₁ ^ 2 - 1) * hx₂)
  have hne := mul_ne_zero (one_add_ne_zero hi hd y₁) (one_add_ne_zero hi hd y₂)
  have hval : 1 + d * y ^ 2 = (1 + d) * ((1 + d * y₁ ^ 2 * y₂ ^ 2) / (1 - d * x₁ * x₂ * y₁ * y₂)) ^ 2 /
      ((1 + d * y₁ ^ 2) * (1 + d * y₂ ^ 2)) := by
    rw [eq_div_iff hne, div_pow, mul_div_assoc', eq_div_iff (pow_ne_zero 2 hm)]
    linear_combination (1 + d * y₁ ^ 2) * (1 + d * y₂ ^ 2) * hsum + (1 + d * y₁ ^ 2 * y₂ ^ 2) * hprod
  rw [hval]
  exact (hd₁.mul (IsSquare.sq _)).div hsq

end Sys2Proof.Edwards
end

section
/-! The group law of the model: complete and closed on the curve and in 2E, and scalar multiplication as repeated doubling
and adding by that law (43_group.md R313, R320 to R322, R337, R348; log entries 8 and 18). -/

-- One theorem after another: many at once exceed the memory that check.sh allows for threads.
set_option Elab.async false

namespace Sys2Proof.Machine

open Safety Edwards

/-! ### The constants of the curve -/

/-- Settles O38: each is a fact about fixed values. -/
theorem constantsMeetTheirDefinitions : Obligations.ConstantsMeetTheirDefinitions := by
  unfold Obligations.ConstantsMeetTheirDefinitions
  decide +kernel

/-- SQRT_AD_MINUS_ONE is a root of a*D - 1, so 1 + D is minus its square (43_group.md R311). -/
theorem inField_sqrtADMinusOne_sq : inField sqrtADMinusOne ^ 2 = -inField curveD - 1 := by
  have h : sqrtADMinusOne * sqrtADMinusOne = -curveD - 1 := by decide +kernel
  rw [pow_two, ← inField_mul, h, inField_sub, inField_neg, inField_one]

theorem isSquare_one_add_curveD : IsSquare (1 + inField curveD) := by
  refine ⟨inField sqrtM1 * inField sqrtADMinusOne, ?_⟩
  linear_combination -inField sqrtADMinusOne ^ 2 * inField_sqrtM1_sq + inField_sqrtADMinusOne_sq

/-! ### The curve and 2E in Mathlib's field -/

theorem onCurve_iff_on (P : Pt) : onCurve P = true ↔ On (inField curveD) (inField P.x) (inField P.y) :=
  onCurve_iff P

/-- The criterion of log entry 18 in Mathlib's field. -/
theorem inTwoE_iff_isSquare (P : Pt) : InTwoE P ↔ onCurve P = true ∧ IsSquare (1 - inField P.y ^ 2) := by
  refine and_congr_right fun _ => ⟨?_, ?_⟩
  · rintro ⟨z, hz⟩
    refine ⟨inField z, ?_⟩
    rw [← inField_mul, hz, inField_sub, inField_mul, inField_one, pow_two]
  · rintro ⟨w, hw⟩
    obtain ⟨z, rfl⟩ := inField_surjective w
    refine ⟨z, inField_inj.1 ?_⟩
    rw [inField_mul, ← hw, inField_sub, inField_mul, inField_one, pow_two]

/-- A point of the curve is in 2E when 1 + D*y^2 is a square. -/
theorem inTwoE_iff (P : Pt) : InTwoE P ↔ onCurve P = true ∧ IsSquare (1 + inField curveD * inField P.y ^ 2) := by
  have := fieldPrime_fact
  rw [inTwoE_iff_isSquare]
  exact and_congr_right fun hP =>
    isSquare_one_sub_iff inField_sqrtM1_sq isSquare_one_add_curveD ((onCurve_iff_on P).1 hP)

theorem onCurve_of_inTwoE {P : Pt} (h : InTwoE P) : onCurve P = true :=
  h.1

/-! ### Addition -/

/-- The number whose sum with 1 and difference from 1 are the denominators of P + Q (43_group.md R313). -/
def lawK (P Q : Pt) : ZMod fieldPrime := inField curveD * inField P.x * inField Q.x * inField P.y * inField Q.y

theorem inField_lawK (P Q : Pt) : inField (curveD * P.x * Q.x * P.y * Q.y) = lawK P Q := by
  simp only [inField_mul, lawK]

/-- The denominators of a sum of two points of the curve do not vanish. -/
theorem lawK_denominators_ne_zero {P Q : Pt} (hP : onCurve P = true) (hQ : onCurve Q = true) :
    1 + lawK P Q ≠ 0 ∧ 1 - lawK P Q ≠ 0 := by
  have := fieldPrime_fact
  exact denominators_ne_zero two_ne_zero_inField inField_sqrtM1_sq not_isSquare_inField_curveD
    ((onCurve_iff_on P).1 hP) ((onCurve_iff_on Q).1 hQ)

/-- The first equation of the group law on the curve (43_group.md R313). -/
theorem inField_ptAdd_x_mul {P Q : Pt} (hP : onCurve P = true) (hQ : onCurve Q = true) :
    inField (ptAdd P Q).x * (1 + lawK P Q) = inField P.x * inField Q.y + inField P.y * inField Q.x := by
  have := fieldPrime_fact
  rw [inField_ptAdd_x]
  exact inv_mul_cancel_right₀ (lawK_denominators_ne_zero hP hQ).1 _

/-- The second equation of the group law on the curve (43_group.md R313). -/
theorem inField_ptAdd_y_mul {P Q : Pt} (hP : onCurve P = true) (hQ : onCurve Q = true) :
    inField (ptAdd P Q).y * (1 - lawK P Q) = inField P.y * inField Q.y + inField P.x * inField Q.x := by
  have := fieldPrime_fact
  rw [inField_ptAdd_y]
  exact inv_mul_cancel_right₀ (lawK_denominators_ne_zero hP hQ).2 _

theorem onCurve_ptAdd {P Q : Pt} (hP : onCurve P = true) (hQ : onCurve Q = true) : onCurve (ptAdd P Q) = true := by
  have := fieldPrime_fact
  obtain ⟨hplus, hminus⟩ := lawK_denominators_ne_zero hP hQ
  exact (onCurve_iff_on _).2 (on_add ((onCurve_iff_on P).1 hP) ((onCurve_iff_on Q).1 hQ) (inField_ptAdd_x_mul hP hQ)
    (inField_ptAdd_y_mul hP hQ) hplus hminus)

/-- A sum is in 2E when the product of 1 + D*y^2 at its terms is a square. -/
theorem inTwoE_ptAdd_of_isSquare {P Q : Pt} (hP : onCurve P = true) (hQ : onCurve Q = true)
    (hsq : IsSquare ((1 + inField curveD * inField P.y ^ 2) * (1 + inField curveD * inField Q.y ^ 2))) :
    InTwoE (ptAdd P Q) := by
  have := fieldPrime_fact
  exact (inTwoE_iff _).2 ⟨onCurve_ptAdd hP hQ,
    isSquare_one_add_of_add inField_sqrtM1_sq not_isSquare_inField_curveD isSquare_one_add_curveD
      ((onCurve_iff_on P).1 hP) ((onCurve_iff_on Q).1 hQ) (inField_ptAdd_y_mul hP hQ)
      (lawK_denominators_ne_zero hP hQ).2 hsq⟩

/-- Settles O44: the denominators by `denominators_ne_zero`, the curve equation by `on_add`, and 2E because the product of
1 + D*y^2 with itself is a square. -/
theorem groupLawIsCompleteOnTheCurve : Obligations.GroupLawIsCompleteOnTheCurve := by
  intro P Q hP hQ
  obtain ⟨hplus, hminus⟩ := lawK_denominators_ne_zero hP hQ
  refine ⟨?plus, ?minus, ?x, ?y, onCurve_ptAdd hP hQ, inTwoE_ptAdd_of_isSquare hP hP ⟨_, rfl⟩⟩
  case plus =>
    rwa [Ne, ← inField_eq_zero_iff, inField_add, inField_one, inField_lawK]
  case minus =>
    rwa [Ne, ← inField_eq_zero_iff, inField_sub, inField_one, inField_lawK]
  case x =>
    rw [← inField_inj, inField_mul, inField_add, inField_one, inField_lawK, inField_ptAdd_x_mul hP hQ]
    simp only [inField_add, inField_mul]
  case y =>
    rw [← inField_inj, inField_mul, inField_sub, inField_one, inField_lawK, inField_ptAdd_y_mul hP hQ]
    simp only [inField_add, inField_mul]

/-! ### Extended coordinates -/

/-- The extended coordinates stand for the affine point (10_state.md R55). -/
structure Represents (E : Ext) (P : Pt) : Prop where
  z_ne_zero : inField E.Z ≠ 0
  x : inField E.X = inField P.x * inField E.Z
  y : inField E.Y = inField P.y * inField E.Z
  t : inField E.T = inField P.x * inField P.y * inField E.Z

theorem represents_extOfPt (P : Pt) : Represents (extOfPt P) P where
  z_ne_zero := by
    have := fieldPrime_fact
    simp [extOfPt]
  x := by simp [extOfPt]
  y := by simp [extOfPt]
  t := by simp [extOfPt]

/-- (0 : 1 : 1 : 0) stands for the neutral element. -/
theorem represents_neutral : Represents ⟨0, 1, 1, 0⟩ neutral where
  z_ne_zero := by
    have := fieldPrime_fact
    simp
  x := by simp
  y := by simp
  t := by simp

theorem Represents.ptOfExt_eq {E : Ext} {P : Pt} (h : Represents E P) : ptOfExt E = P := by
  have := fieldPrime_fact
  refine pt_eq_of_inField ?_ ?_
  · rw [ptOfExt, inField_mul, inField_feInv, h.x, mul_inv_cancel_right₀ h.z_ne_zero]
  · rw [ptOfExt, inField_mul, inField_feInv, h.y, mul_inv_cancel_right₀ h.z_ne_zero]

/-- The addition in extended coordinates is the group law (43_group.md R320). -/
theorem Represents.extAdd {E F : Ext} {P Q : Pt} (hE : Represents E P) (hF : Represents F Q) (hP : onCurve P = true)
    (hQ : onCurve Q = true) : Represents (extAdd E F) (ptAdd P Q) := by
  have := fieldPrime_fact
  obtain ⟨hplus, hminus⟩ := lawK_denominators_ne_zero hP hQ
  have hx := inField_ptAdd_x_mul hP hQ
  have hy := inField_ptAdd_y_mul hP hQ
  obtain ⟨hEz, hEx, hEy, hEt⟩ := hE
  obtain ⟨hFz, hFx, hFy, hFt⟩ := hF
  have he : inField ((E.Y + E.X) * (F.Y + F.X) - (E.Y - E.X) * (F.Y - F.X)) =
      2 * inField E.Z * inField F.Z * (inField (ptAdd P Q).x * (1 + lawK P Q)) := by
    simp only [inField_add, inField_sub, inField_mul, hEx, hEy, hFx, hFy, hx]
    ring
  have hh : inField ((E.Y + E.X) * (F.Y + F.X) + (E.Y - E.X) * (F.Y - F.X)) =
      2 * inField E.Z * inField F.Z * (inField (ptAdd P Q).y * (1 - lawK P Q)) := by
    simp only [inField_add, inField_sub, inField_mul, hEx, hEy, hFx, hFy, hy]
    ring
  have hf : inField ((E.Z + E.Z) * F.Z - E.T * curve2D * F.T) = 2 * inField E.Z * inField F.Z * (1 - lawK P Q) := by
    simp only [inField_add, inField_sub, inField_mul, curve2D, hEt, hFt, lawK]
    ring
  have hg : inField ((E.Z + E.Z) * F.Z + E.T * curve2D * F.T) = 2 * inField E.Z * inField F.Z * (1 + lawK P Q) := by
    simp only [inField_add, inField_mul, curve2D, hEt, hFt, lawK]
    ring
  have hzz : 2 * inField E.Z * inField F.Z ≠ 0 := mul_ne_zero (mul_ne_zero two_ne_zero_inField hEz) hFz
  constructor
  case z_ne_zero =>
    rw [Machine.extAdd, inField_mul, hf, hg]
    exact mul_ne_zero (mul_ne_zero hzz hminus) (mul_ne_zero hzz hplus)
  case x =>
    simp only [Machine.extAdd]
    rw [inField_mul, inField_mul, he, hf, hg]
    ring
  case y =>
    simp only [Machine.extAdd]
    rw [inField_mul, inField_mul, hg, hh, hf]
    ring
  case t =>
    simp only [Machine.extAdd]
    rw [inField_mul, inField_mul, he, hh, hf, hg]
    ring

/-- The doubling in extended coordinates is the group law: the curve equation turns its denominators into those of R313
(43_group.md R321). -/
theorem Represents.extDbl {E : Ext} {P : Pt} (hE : Represents E P) (hP : onCurve P = true) :
    Represents (extDbl E) (ptAdd P P) := by
  have := fieldPrime_fact
  obtain ⟨hplus, hminus⟩ := lawK_denominators_ne_zero hP hP
  have hx := inField_ptAdd_x_mul hP hP
  have hy := inField_ptAdd_y_mul hP hP
  have hcurve := (onCurve_iff P).1 hP
  obtain ⟨hEz, hEx, hEy, hEt⟩ := hE
  have he : inField (E.X * E.X + E.Y * E.Y - (E.X + E.Y) * (E.X + E.Y)) =
      -inField E.Z ^ 2 * (inField (ptAdd P P).x * (1 + lawK P P)) := by
    simp only [inField_add, inField_sub, inField_mul, hEx, hEy, hx]
    ring
  have hh : inField (E.X * E.X + E.Y * E.Y) = inField E.Z ^ 2 * (inField (ptAdd P P).y * (1 - lawK P P)) := by
    simp only [inField_add, inField_mul, hEx, hEy, hy]
    ring
  have hg : inField (E.X * E.X - E.Y * E.Y) = -inField E.Z ^ 2 * (1 + lawK P P) := by
    simp only [inField_sub, inField_mul, hEx, hEy, lawK]
    linear_combination -inField E.Z ^ 2 * hcurve
  have hf : inField (E.Z * E.Z + E.Z * E.Z + (E.X * E.X - E.Y * E.Y)) = inField E.Z ^ 2 * (1 - lawK P P) := by
    rw [inField_add, hg, inField_add, inField_mul]
    ring
  have hzz : inField E.Z ^ 2 ≠ 0 := pow_ne_zero 2 hEz
  constructor
  case z_ne_zero =>
    simp only [Machine.extDbl]
    rw [inField_mul, hf, hg]
    exact mul_ne_zero (mul_ne_zero hzz hminus) (mul_ne_zero (neg_ne_zero.2 hzz) hplus)
  case x =>
    simp only [Machine.extDbl]
    rw [inField_mul, inField_mul, he, hf, hg]
    ring
  case y =>
    simp only [Machine.extDbl]
    rw [inField_mul, inField_mul, hg, hh, hf]
    ring
  case t =>
    simp only [Machine.extDbl]
    rw [inField_mul, inField_mul, he, hh, hf, hg]
    ring

/-! ### Scalar multiplication -/

/-- k*P over the lowest `bits` bits of k by the group law alone; `ptMul_eq_doubleAndAdd` ties it to the model. -/
def doubleAndAdd (P : Pt) : Nat → Nat → Pt
  | 0, _ => neutral
  | bits + 1, k =>
    let R := ptAdd (doubleAndAdd P bits (k / 2)) (doubleAndAdd P bits (k / 2))
    if k % 2 = 1 then ptAdd R P else R

/-- What holds of the neutral element and of P, and of sums, holds of every multiple of P. -/
theorem doubleAndAdd_induction {Q : Pt → Prop} {P : Pt} (hneutral : Q neutral) (hP : Q P)
    (hadd : ∀ R S, Q R → Q S → Q (ptAdd R S)) (bits k : Nat) : Q (doubleAndAdd P bits k) := by
  induction bits generalizing k with
  | zero => exact hneutral
  | succ bits ih =>
    rw [doubleAndAdd]
    split
    · exact hadd _ _ (hadd _ _ (ih _) (ih _)) hP
    · exact hadd _ _ (ih _) (ih _)

theorem onCurve_neutral : onCurve neutral = true := by
  decide +kernel

theorem onCurve_doubleAndAdd {P : Pt} (hP : onCurve P = true) (bits k : Nat) : onCurve (doubleAndAdd P bits k) = true :=
  doubleAndAdd_induction (Q := fun R => onCurve R = true) onCurve_neutral hP (fun _ _ => onCurve_ptAdd) bits k

theorem represents_extMul {P : Pt} (hP : onCurve P = true) (bits k : Nat) :
    Represents (extMul (extOfPt P) bits k) (doubleAndAdd P bits k) := by
  induction bits generalizing k with
  | zero => exact represents_neutral
  | succ bits ih =>
    have hR := onCurve_doubleAndAdd hP bits (k / 2)
    have hdbl := (ih (k / 2)).extDbl hR
    rw [extMul, doubleAndAdd]
    split
    · exact hdbl.extAdd (represents_extOfPt P) (onCurve_ptAdd hR hR) hP
    · exact hdbl

/-- Scalar multiplication of a point of the curve is doubling and adding by the group law. -/
theorem ptMul_eq_doubleAndAdd {P : Pt} (hP : onCurve P = true) (k : Nat) : ptMul k P = doubleAndAdd P 253 k :=
  (represents_extMul hP 253 k).ptOfExt_eq

/-- 0*P is the neutral element, however many bits are read. -/
theorem doubleAndAdd_zero (P : Pt) (bits : Nat) : doubleAndAdd P bits 0 = neutral := by
  induction bits with
  | zero => rfl
  | succ bits ih => simp only [doubleAndAdd, Nat.zero_div, Nat.zero_mod, ih, ptAdd_neutral, zero_ne_one, if_false]

/-- Leading zeros add nothing. -/
theorem doubleAndAdd_succ_of_lt (P : Pt) {bits k : Nat} (hk : k < 2 ^ bits) :
    doubleAndAdd P (bits + 1) k = doubleAndAdd P bits k := by
  induction bits generalizing k with
  | zero =>
    obtain rfl : k = 0 := by omega
    exact doubleAndAdd_zero P 1
  | succ bits ih => rw [doubleAndAdd, ih (by omega), doubleAndAdd]

theorem doubleAndAdd_two_mul (P : Pt) (bits k : Nat) :
    doubleAndAdd P (bits + 1) (2 * k) = ptAdd (doubleAndAdd P bits k) (doubleAndAdd P bits k) := by
  rw [doubleAndAdd, show 2 * k / 2 = k by omega, if_neg (by omega)]

theorem doubleAndAdd_two_mul_add_one (P : Pt) (bits k : Nat) :
    doubleAndAdd P (bits + 1) (2 * k + 1) = ptAdd (ptAdd (doubleAndAdd P bits k) (doubleAndAdd P bits k)) P := by
  rw [doubleAndAdd, show (2 * k + 1) / 2 = k by omega, if_pos (by omega)]

theorem onCurve_ptMul {P : Pt} (hP : onCurve P = true) (k : Nat) : onCurve (ptMul k P) = true := by
  rw [ptMul_eq_doubleAndAdd hP]
  exact onCurve_doubleAndAdd hP 253 k

theorem ptMul_zero {P : Pt} (hP : onCurve P = true) : ptMul 0 P = neutral := by
  rw [ptMul_eq_doubleAndAdd hP, doubleAndAdd_zero]

theorem ptMul_two_mul {P : Pt} (hP : onCurve P = true) {k : Nat} (hk : k < 2 ^ 252) :
    ptMul (2 * k) P = ptAdd (ptMul k P) (ptMul k P) := by
  rw [ptMul_eq_doubleAndAdd hP, ptMul_eq_doubleAndAdd hP, doubleAndAdd_two_mul, doubleAndAdd_succ_of_lt P hk]

theorem ptMul_two_mul_add_one {P : Pt} (hP : onCurve P = true) {k : Nat} (hk : k < 2 ^ 252) :
    ptMul (2 * k + 1) P = ptAdd (ptAdd (ptMul k P) (ptMul k P)) P := by
  rw [ptMul_eq_doubleAndAdd hP, ptMul_eq_doubleAndAdd hP, doubleAndAdd_two_mul_add_one, doubleAndAdd_succ_of_lt P hk]

theorem ptMul_one {P : Pt} (hP : onCurve P = true) : ptMul 1 P = P := by
  rw [ptMul_two_mul_add_one hP (k := 0) (by norm_num), ptMul_zero hP, ptAdd_neutral, ptAdd_comm, ptAdd_neutral]

/-- Settles O46, through doubling and adding by the group law alone. -/
theorem scalarMultiplicationDoublesAndAdds : Obligations.ScalarMultiplicationDoublesAndAdds := by
  intro P hP
  exact ⟨ptMul_zero hP, ptMul_one hP, fun k _ => onCurve_ptMul hP k,
    fun k hk => ⟨ptMul_two_mul hP hk, ptMul_two_mul_add_one hP hk⟩⟩

/-! ### 2E is a subgroup -/

theorem inTwoE_neutral : InTwoE neutral :=
  ⟨onCurve_neutral, 0, by decide +kernel⟩

/-- The base point is in 2E: y = 4/5, so 1 - y^2 = (3/5)^2 (43_group.md R312). -/
theorem inTwoE_basePoint : InTwoE basePoint :=
  ⟨by decide +kernel, feDiv 3 5, by decide +kernel⟩

theorem inTwoE_ptAdd {P Q : Pt} (hP : InTwoE P) (hQ : InTwoE Q) : InTwoE (ptAdd P Q) :=
  inTwoE_ptAdd_of_isSquare (onCurve_of_inTwoE hP) (onCurve_of_inTwoE hQ)
    (((inTwoE_iff P).1 hP).2.mul ((inTwoE_iff Q).1 hQ).2)

theorem inTwoE_ptNeg {P : Pt} (hP : InTwoE P) : InTwoE (ptNeg P) :=
  ⟨(onCurve_ptNeg P).trans (onCurve_of_inTwoE hP), hP.2⟩

theorem inTwoE_ptMul {P : Pt} (hP : InTwoE P) (k : Nat) : InTwoE (ptMul k P) := by
  rw [ptMul_eq_doubleAndAdd (onCurve_of_inTwoE hP)]
  exact doubleAndAdd_induction inTwoE_neutral hP (fun _ _ => inTwoE_ptAdd) 253 k

end Sys2Proof.Machine
end

section
/-! The Elligator map: its denominators never vanish, since D is no square while -1 and 1 + D are, and its point meets the
curve equation by two polynomial identities in r and D (43_group.md R318). -/

-- One theorem after another: many at once exceed the memory that check.sh allows for threads.
set_option Elab.async false

namespace Sys2Proof.Edwards

variable {K : Type*} [Field K] {d i e r s u v c n x y w : K}

/-! ### In any field -/

/-- A square is no multiple of D by a nonzero square. -/
theorem sq_ne_mul_sq (hd : ¬IsSquare d) {a b : K} (hb : b ≠ 0) : a ^ 2 ≠ d * b ^ 2 := fun h =>
  hd ⟨a / b, by rw [← pow_two, div_pow, h, mul_div_cancel_right₀ _ (pow_ne_zero 2 hb)]⟩

/-- As -1 is a square, a square is no multiple of -D by a nonzero square either. -/
theorem sq_ne_neg_mul_sq (hi : i ^ 2 = -1) (hd : ¬IsSquare d) {a b : K} (hb : b ≠ 0) : a ^ 2 ≠ -(d * b ^ 2) := fun h =>
  sq_ne_mul_sq (a := i * a) hd hb (by linear_combination a ^ 2 * hi - h)

theorem sub_one_ne_zero (hd : ¬IsSquare d) : d - 1 ≠ 0 := fun h => hd ⟨1, by linear_combination h⟩

theorem add_one_ne_zero (hi : i ^ 2 = -1) (hd : ¬IsSquare d) : 1 + d ≠ 0 := fun h => hd ⟨i, by linear_combination h - hi⟩

/-- The values of the Elligator map in its two cases, the second with the case of a root 0 (43_group.md R318). -/
structure IsElligator {R : Type*} [CommRing R] (d r u v s c n : R) : Prop where
  u_eq : u = (r + 1) * (1 - d ^ 2)
  v_eq : v = (-1 - r * d) * (r + d)
  n_eq : n = c * (r - 1) * (d - 1) ^ 2 - v
  cases : (c = -1 ∧ s ^ 2 * v = u) ∨ (c = r ∧ (s ^ 2 * v = r * u ∨ s = 0))

/-- The first denominator does not vanish: it is a quadratic in r whose discriminant is -D, up to a square. -/
theorem IsElligator.n_ne_zero (h : IsElligator d r u v s c n) (hi : i ^ 2 = -1) (hd : ¬IsSquare d) : n ≠ 0 := by
  obtain ⟨-, rfl, rfl, ⟨rfl, -⟩ | ⟨rfl, -⟩⟩ := h
  · exact fun h => sq_ne_neg_mul_sq (a := d * r + d) hi hd (sub_one_ne_zero hd) (by linear_combination d * h)
  · exact fun h => sq_ne_neg_mul_sq (a := (d ^ 2 - d + 1) * c + d) hi hd (sub_one_ne_zero hd)
      (by linear_combination (d ^ 2 - d + 1) * h)

/-- The second denominator does not vanish: it would make a quadratic in r vanish whose discriminant is D*(1 + D), up to a
square. -/
theorem IsElligator.one_add_sq_ne_zero (h : IsElligator d r u v s c n) (hi : i ^ 2 = -1) (hd : ¬IsSquare d)
    (he : e ^ 2 = 1 + d) : 1 + s ^ 2 ≠ 0 := by
  have hb : (d - 1) * e ≠ 0 := by
    refine mul_ne_zero (sub_one_ne_zero hd) fun h => add_one_ne_zero hi hd ?_
    rw [← he, h, zero_pow two_ne_zero]
  intro hs
  obtain ⟨rfl, rfl, rfl, ⟨rfl, h⟩ | ⟨rfl, h | rfl⟩⟩ := h
  · exact sq_ne_mul_sq (a := d * r + d ^ 2) hd hb
      (by linear_combination d * (h - (-1 - r * d) * (r + d) * hs) - d * (d - 1) ^ 2 * he)
  · exact sq_ne_mul_sq (a := (1 - d - d ^ 2) * c - d ^ 2) hd hb
      (by linear_combination (1 - d - d ^ 2) * ((-1 - c * d) * (c + d) * hs - h) - d * (d - 1) ^ 2 * he)
  · simp at hs

/-- The identity behind the curve equation, with w the value of s^2*v. -/
theorem IsElligator.sq_mul_eq (h : IsElligator d r u v s c n) :
    s ^ 2 * (n ^ 2 * (1 + d)) = s ^ 2 * ((v + s ^ 2 * v) ^ 2 + d * (v - s ^ 2 * v) ^ 2) := by
  obtain ⟨rfl, rfl, rfl, ⟨rfl, h⟩ | ⟨rfl, h | rfl⟩⟩ := h
  · rw [h]
    ring
  · rw [h]
    ring
  · simp

/-- The point of the Elligator map lies on the curve. -/
theorem IsElligator.on (h : IsElligator d r u v s c n) (he : e ^ 2 = -d - 1) (hn : n * e ≠ 0) (hs : 1 + s ^ 2 ≠ 0)
    (hx : x * (n * e) = 2 * s * v) (hy : y * (1 + s ^ 2) = 1 - s ^ 2) : On d x y := by
  have hmain := h.sq_mul_eq
  rw [On]
  refine mul_right_cancel₀ (mul_ne_zero (pow_ne_zero 2 hn) (pow_ne_zero 2 hs)) ?_
  have hx2 : x ^ 2 * (n * e) ^ 2 = 4 * s ^ 2 * v ^ 2 := by rw [← mul_pow, hx]; ring
  have hy2 : y ^ 2 * (1 + s ^ 2) ^ 2 = (1 - s ^ 2) ^ 2 := by rw [← mul_pow, hy]
  have hxy : x ^ 2 * y ^ 2 * ((n * e) ^ 2 * (1 + s ^ 2) ^ 2) = 4 * s ^ 2 * v ^ 2 * (1 - s ^ 2) ^ 2 := by
    rw [← hx2, ← hy2]
    ring
  linear_combination (n * e) ^ 2 * hy2 - (1 + s ^ 2) ^ 2 * hx2 - d * hxy - 4 * s ^ 2 * n ^ 2 * he + 4 * hmain

end Sys2Proof.Edwards
end

section
/-! The model's Elligator map: the values it computes are those of `Edwards.IsElligator`, so its point lies on the curve and
in 2E (43_group.md R318, R330, R344, R348). -/

-- One theorem after another: many at once exceed the memory that check.sh allows for threads.
set_option Elab.async false

namespace Sys2Proof.Machine

open Safety Edwards

/-! ### Facts about the constants -/

theorem oneMinusDSq_eq : oneMinusDSq = 1 - curveD * curveD := by
  decide +kernel

theorem dMinusOneSq_eq : dMinusOneSq = (curveD - 1) * (curveD - 1) := by
  decide +kernel

theorem inField_oneMinusDSq : inField oneMinusDSq = 1 - inField curveD ^ 2 := by
  rw [oneMinusDSq_eq, inField_sub, inField_one, inField_mul, pow_two]

theorem inField_dMinusOneSq : inField dMinusOneSq = (inField curveD - 1) ^ 2 := by
  rw [dMinusOneSq_eq, inField_mul, inField_sub, inField_one, pow_two]

/-- D is no square and 1 is, so 1 - D^2 has no vanishing factor. -/
theorem one_sub_inField_curveD_sq_ne_zero : 1 - inField curveD ^ 2 ≠ 0 := by
  have := fieldPrime_fact
  have hminus := sub_one_ne_zero not_isSquare_inField_curveD
  have hplus := add_one_ne_zero inField_sqrtM1_sq not_isSquare_inField_curveD
  have hfactors : 1 - inField curveD ^ 2 = -((inField curveD - 1) * (1 + inField curveD)) := by ring
  rw [hfactors]
  exact neg_ne_zero.2 (mul_ne_zero hminus hplus)

theorem inField_sqrtADMinusOne_ne_zero : inField sqrtADMinusOne ≠ 0 := by
  have := fieldPrime_fact
  intro h
  have hsq := inField_sqrtADMinusOne_sq
  rw [h, zero_pow two_ne_zero] at hsq
  exact add_one_ne_zero inField_sqrtM1_sq not_isSquare_inField_curveD (by linear_combination hsq)

/-- 1 + D is the square of SQRT_M1 * SQRT_AD_MINUS_ONE. -/
theorem inField_root_one_add_curveD : (inField sqrtM1 * inField sqrtADMinusOne) ^ 2 = 1 + inField curveD := by
  rw [mul_pow, inField_sqrtM1_sq, inField_sqrtADMinusOne_sq]
  ring

/-! ### The values the map computes -/

/-- r of R318. -/
def ellR (t : Fe) : Fe := sqrtM1 * (t * t)

/-- u of R318. -/
def ellU (t : Fe) : Fe := (ellR t + 1) * oneMinusDSq

/-- v of R318. -/
def ellV (t : Fe) : Fe := (-1 - ellR t * curveD) * (ellR t + curveD)

/-- The flag and the root of R318. -/
def ellRoot (t : Fe) : Bool × Fe := sqrtRatioM1 (ellU t) (ellV t)

/-- s of R318, after the selection. -/
def ellS (t : Fe) : Fe := ctSelect (ellRoot t).1 (ellRoot t).2 (-feAbs ((ellRoot t).2 * t))

/-- c of R318, after the selection. -/
def ellC (t : Fe) : Fe := ctSelect (ellRoot t).1 (-1) (ellR t)

/-- N of R318. -/
def ellN (t : Fe) : Fe := ellC t * (ellR t - 1) * dMinusOneSq - ellV t

theorem elligatorExt_eq (t : Fe) : elligatorExt t =
    ⟨(ellS t + ellS t) * ellV t * (1 + ellS t * ellS t), (1 - ellS t * ellS t) * (ellN t * sqrtADMinusOne),
      ellN t * sqrtADMinusOne * (1 + ellS t * ellS t), (ellS t + ellS t) * ellV t * (1 - ellS t * ellS t)⟩ := rfl

theorem inField_ellR (t : Fe) : inField (ellR t) = inField sqrtM1 * inField t ^ 2 := by
  rw [ellR, inField_mul, inField_mul, pow_two]

/-- u is never 0: -1/SQRT_M1 is no square and D^2 is not 1. -/
theorem ellU_ne_zero (t : Fe) : ellU t ≠ 0 := by
  have := fieldPrime_fact
  rw [Ne, ← inField_eq_zero_iff, ellU, inField_mul, inField_oneMinusDSq, inField_add, inField_one, inField_ellR]
  refine mul_ne_zero (fun h => ?_) one_sub_inField_curveD_sq_ne_zero
  have ht : inField t ≠ 0 := by
    intro ht
    simp [ht] at h
  refine not_isSquare_inField_sqrtM1 ⟨inField sqrtM1 / inField t, ?_⟩
  rw [← pow_two, div_pow, inField_sqrtM1_sq, eq_div_iff (pow_ne_zero 2 ht)]
  linear_combination h

theorem ellS_of_flag {t : Fe} (h : (ellRoot t).1 = true) : ellS t = (ellRoot t).2 := by
  rw [ellS, h, ctSelect, if_pos rfl]

theorem ellS_of_not_flag {t : Fe} (h : (ellRoot t).1 = false) : ellS t = -feAbs ((ellRoot t).2 * t) := by
  rw [ellS, h, ctSelect, if_neg Bool.false_ne_true]

theorem ellC_of_flag {t : Fe} (h : (ellRoot t).1 = true) : ellC t = -1 := by
  rw [ellC, h, ctSelect, if_pos rfl]

theorem ellC_of_not_flag {t : Fe} (h : (ellRoot t).1 = false) : ellC t = ellR t := by
  rw [ellC, h, ctSelect, if_neg Bool.false_ne_true]

theorem inField_ellS_sq_of_not_flag {t : Fe} (h : (ellRoot t).1 = false) :
    inField (ellS t) ^ 2 = inField (ellRoot t).2 ^ 2 * inField t ^ 2 := by
  rw [ellS_of_not_flag h, inField_neg, neg_sq, inField_feAbs_sq, inField_mul, mul_pow]

/-- The two cases of R318 as equations of s. -/
theorem ell_cases (t : Fe) : (inField (ellC t) = -1 ∧ inField (ellS t) ^ 2 * inField (ellV t) = inField (ellU t)) ∨
    (inField (ellC t) = inField (ellR t) ∧
      (inField (ellS t) ^ 2 * inField (ellV t) = inField (ellR t) * inField (ellU t) ∨ inField (ellS t) = 0)) := by
  have := fieldPrime_fact
  by_cases hv : ellV t = 0
  · have hroot : ellRoot t = (false, 0) := by rw [ellRoot, hv, sqrtRatioM1_zero_right (ellU_ne_zero t)]
    have hflag : (ellRoot t).1 = false := by rw [hroot]
    have hs : inField (ellS t) ^ 2 = 0 := by
      rw [inField_ellS_sq_of_not_flag hflag, hroot]
      simp
    exact .inr ⟨by rw [ellC_of_not_flag hflag], .inr (pow_eq_zero_iff two_ne_zero |>.1 hs)⟩
  · have hroot := sqrtRatioM1_root (ellU_ne_zero t) hv
    rw [← ellRoot] at hroot
    cases hflag : (ellRoot t).1 with
    | true =>
      rw [hflag, if_pos rfl] at hroot
      refine .inl ⟨by rw [ellC_of_flag hflag, inField_neg, inField_one], ?_⟩
      rw [ellS_of_flag hflag, mul_comm, hroot]
    | false =>
      rw [hflag, if_neg Bool.false_ne_true] at hroot
      refine .inr ⟨by rw [ellC_of_not_flag hflag], .inl ?_⟩
      rw [inField_ellS_sq_of_not_flag hflag, inField_ellR]
      linear_combination inField t ^ 2 * hroot

/-- The model computes the values that `IsElligator` describes. -/
theorem isElligator (t : Fe) : IsElligator (inField curveD) (inField (ellR t)) (inField (ellU t)) (inField (ellV t))
    (inField (ellS t)) (inField (ellC t)) (inField (ellN t)) where
  u_eq := by rw [ellU, inField_mul, inField_add, inField_one, inField_oneMinusDSq]
  v_eq := by simp only [ellV, inField_mul, inField_add, inField_sub, inField_neg, inField_one]
  n_eq := by rw [ellN, inField_sub, inField_mul, inField_mul, inField_sub, inField_one, inField_dMinusOneSq]
  cases := ell_cases t

/-! ### The denominators and the point -/

theorem inField_w1_ne_zero (t : Fe) : inField (ellN t) * inField sqrtADMinusOne ≠ 0 := by
  have := fieldPrime_fact
  exact mul_ne_zero ((isElligator t).n_ne_zero inField_sqrtM1_sq not_isSquare_inField_curveD) inField_sqrtADMinusOne_ne_zero

theorem inField_w3_ne_zero (t : Fe) : 1 + inField (ellS t) ^ 2 ≠ 0 := by
  have := fieldPrime_fact
  exact (isElligator t).one_add_sq_ne_zero inField_sqrtM1_sq not_isSquare_inField_curveD inField_root_one_add_curveD

theorem inField_w1_fe_ne_zero (t : Fe) : inField (ellN t * sqrtADMinusOne) ≠ 0 := by
  rw [inField_mul]
  exact inField_w1_ne_zero t

theorem inField_w3_fe_ne_zero (t : Fe) : inField (1 + ellS t * ellS t) ≠ 0 := by
  rw [inField_add, inField_one, inField_mul, ← pow_two]
  exact inField_w3_ne_zero t

/-- The point (w0/w1, w2/w3) of the representative of R318. -/
theorem ptOfExt_quotients (w0 w1 w2 w3 wt : Fe) (h1 : inField w1 ≠ 0) (h3 : inField w3 ≠ 0) :
    inField (ptOfExt ⟨w0 * w3, w2 * w1, w1 * w3, wt⟩).x * inField w1 = inField w0 ∧
      inField (ptOfExt ⟨w0 * w3, w2 * w1, w1 * w3, wt⟩).y * inField w3 = inField w2 := by
  have := fieldPrime_fact
  simp only [ptOfExt, inField_mul, inField_feInv]
  constructor <;> field_simp

theorem inField_two : inField 2 = 2 := by
  rw [show (2 : Fe) = 1 + 1 by decide, inField_add, inField_one, one_add_one_eq_two]

theorem inField_two_mul (x : Fe) : inField (x + x) = 2 * inField x := by
  rw [inField_add, two_mul]

theorem inField_elligator_x (t : Fe) :
    inField (elligator t).x * (inField (ellN t) * inField sqrtADMinusOne) = 2 * inField (ellS t) * inField (ellV t) := by
  have hpoint := (ptOfExt_quotients ((ellS t + ellS t) * ellV t) (ellN t * sqrtADMinusOne) (1 - ellS t * ellS t)
    (1 + ellS t * ellS t) ((ellS t + ellS t) * ellV t * (1 - ellS t * ellS t)) (inField_w1_fe_ne_zero t)
    (inField_w3_fe_ne_zero t)).1
  rwa [← elligatorExt_eq, ← elligator, inField_mul, inField_mul, inField_two_mul] at hpoint

theorem inField_elligator_y (t : Fe) :
    inField (elligator t).y * (1 + inField (ellS t) ^ 2) = 1 - inField (ellS t) ^ 2 := by
  have hpoint := (ptOfExt_quotients ((ellS t + ellS t) * ellV t) (ellN t * sqrtADMinusOne) (1 - ellS t * ellS t)
    (1 + ellS t * ellS t) ((ellS t + ellS t) * ellV t * (1 - ellS t * ellS t)) (inField_w1_fe_ne_zero t)
    (inField_w3_fe_ne_zero t)).2
  rwa [← elligatorExt_eq, ← elligator, inField_add, inField_sub, inField_one, inField_mul, ← pow_two] at hpoint

theorem onCurve_elligator (t : Fe) : onCurve (elligator t) = true := by
  have := fieldPrime_fact
  exact (onCurve_iff_on _).2 ((isElligator t).on inField_sqrtADMinusOne_sq (inField_w1_ne_zero t) (inField_w3_ne_zero t)
    (inField_elligator_x t) (inField_elligator_y t))

/-- The quotient (1 - e^2)/(1 + e^2) makes 1 - y^2 the square of 2*e/(1 + e^2). -/
theorem isSquare_one_sub_of_quotient {y e : ZMod fieldPrime} (hu : 1 + e ^ 2 ≠ 0) (hy : y * (1 + e ^ 2) = 1 - e ^ 2) :
    IsSquare (1 - y ^ 2) := by
  have := fieldPrime_fact
  refine ⟨2 * e / (1 + e ^ 2), ?_⟩
  rw [eq_div_of_mul_eq hu hy]
  field_simp
  ring

/-- The map lands in 2E, as y is such a quotient. -/
theorem inTwoE_elligator (t : Fe) : InTwoE (elligator t) :=
  (inTwoE_iff_isSquare _).2
    ⟨onCurve_elligator t, isSquare_one_sub_of_quotient (inField_w3_ne_zero t) (inField_elligator_y t)⟩

/-- Settles O48, through `IsElligator`. -/
theorem elligatorLandsOnTheCurve : Obligations.ElligatorLandsOnTheCurve := by
  have := fieldPrime_fact
  intro t
  refine ⟨onCurve_elligator t, ?_⟩
  rw [← oneMinusDSq_eq, ← dMinusOneSq_eq]
  refine ⟨ellU_ne_zero t, ellS t, ellC t, ellN t, ?cases, rfl, ?w1, ?w3, ?x, ?y⟩
  case cases =>
    change ((ellRoot t).1 = true ∧ ellS t = (ellRoot t).2 ∧ ellC t = -1) ∨
      ((ellRoot t).1 = false ∧ (ellS t = (ellRoot t).2 * t ∨ ellS t = -((ellRoot t).2 * t)) ∧
        (-ellS t).val % 2 = 0 ∧ ellC t = ellR t)
    cases hflag : (ellRoot t).1 with
    | true => exact .inl ⟨rfl, ellS_of_flag hflag, ellC_of_flag hflag⟩
    | false =>
      have hneg : -ellS t = feAbs ((ellRoot t).2 * t) := by
        rw [ellS_of_not_flag hflag, ← inField_inj, inField_neg, inField_neg, neg_neg]
      refine .inr ⟨rfl, ?_, ?_, ellC_of_not_flag hflag⟩
      · have hsq := inField_ellS_sq_of_not_flag hflag
        rw [← mul_pow, ← inField_mul, sq_eq_sq_iff_eq_or_eq_neg, ← inField_neg, inField_inj, inField_inj] at hsq
        exact hsq
      · rw [hneg, ← isNegative_eq_false_iff, isNegative_feAbs]
  case w1 =>
    rw [Ne, ← inField_eq_zero_iff]
    exact inField_w1_fe_ne_zero t
  case w3 =>
    rw [Ne, ← inField_eq_zero_iff]
    exact inField_w3_fe_ne_zero t
  case x =>
    rw [← inField_inj, inField_mul, inField_mul, inField_mul, inField_mul, inField_two]
    exact inField_elligator_x t
  case y =>
    rw [← inField_inj, inField_mul, inField_add, inField_sub, inField_one, inField_mul, ← pow_two]
    exact inField_elligator_y t

/-- The map reads t through t^2 and the absolute value of root*t only. -/
theorem elligator_neg (t : Fe) : elligator (-t) = elligator t := by
  have hr : ellR (-t) = ellR t := by rw [← inField_inj, inField_ellR, inField_ellR, inField_neg, neg_sq]
  have hv : ellV (-t) = ellV t := by rw [ellV, hr, ellV]
  have hroot : ellRoot (-t) = ellRoot t := by rw [ellRoot, hv, ellU, hr, ← ellU, ← ellRoot]
  have habs : feAbs ((ellRoot t).2 * -t) = feAbs ((ellRoot t).2 * t) := by
    refine feAbs_eq_of_sq_eq (isNegative_feAbs _) ?_
    rw [inField_feAbs_sq, inField_mul, inField_neg, inField_mul, mul_neg, neg_sq]
  have hs : ellS (-t) = ellS t := by rw [ellS, hroot, habs, ← ellS]
  have hc : ellC (-t) = ellC t := by rw [ellC, hroot, hr, ← ellC]
  have hn : ellN (-t) = ellN t := by rw [ellN, hc, hr, hv, ← ellN]
  rw [elligator, elligator, elligatorExt_eq, elligatorExt_eq, hs, hv, hn]

/-- Settles O47. -/
theorem elligatorIsEven : Obligations.ElligatorIsEven :=
  ⟨by decide +kernel, elligator_neg⟩

end Sys2Proof.Machine
end

section
/-! Ristretto decoding: the tests, the equations of its point, and that the point lies on the curve and in 2E
(43_group.md R317, R330, R332, R348). -/

-- One theorem after another: many at once exceed the memory that check.sh allows for threads.
set_option Elab.async false

namespace Sys2Proof.Edwards

variable {K : Type*} [Field K] {d e r v x y : K}

/-- The decoding's equations give a point of the curve. -/
theorem on_decode (hv : v = -(d * (1 - e ^ 2) ^ 2) - (1 + e ^ 2) ^ 2) (hv0 : v ≠ 0) (hu : 1 + e ^ 2 ≠ 0)
    (hx : x ^ 2 * v = 4 * e ^ 2) (hy : y * (1 + e ^ 2) = 1 - e ^ 2) : On d x y := by
  rw [On]
  refine mul_right_cancel₀ (mul_ne_zero hv0 (pow_ne_zero 2 hu)) ?_
  have hy2 : y ^ 2 * (1 + e ^ 2) ^ 2 = (1 - e ^ 2) ^ 2 := by rw [← mul_pow, hy]
  have hxy : x ^ 2 * y ^ 2 * (v * (1 + e ^ 2) ^ 2) = 4 * e ^ 2 * (1 - e ^ 2) ^ 2 := by
    rw [← hx, ← hy2]
    ring
  linear_combination v * hy2 - (1 + e ^ 2) ^ 2 * hx - d * hxy - 4 * e ^ 2 * hv

end Sys2Proof.Edwards

namespace Sys2Proof.Machine

open Safety Edwards

/-! ### The values the decoding computes -/

/-- u2 of R317. -/
def decU2 (e : Fe) : Fe := 1 + e * e

/-- v of R317. -/
def decV (e : Fe) : Fe := -(curveD * ((1 - e * e) * (1 - e * e))) - decU2 e * decU2 e

/-- The flag and the root of R317. -/
def decRoot (e : Fe) : Bool × Fe := sqrtRatioM1 1 (decV e * (decU2 e * decU2 e))

/-- den_x of R317. -/
def decDenX (e : Fe) : Fe := (decRoot e).2 * decU2 e

/-- The decoded x of R317. -/
def decX (e : Fe) : Fe := feAbs ((e + e) * decDenX e)

/-- The decoded y of R317. -/
def decY (e : Fe) : Fe := (1 - e * e) * ((decRoot e).2 * decDenX e * decV e)

/-- The decoded point of R317. -/
def decPoint (e : Fe) : Pt := ⟨decX e, decY e⟩

@[simp] theorem decPoint_x (e : Fe) : (decPoint e).x = decX e := by rw [decPoint]

@[simp] theorem decPoint_y (e : Fe) : (decPoint e).y = decY e := by rw [decPoint]

/-- The three tests of R317. -/
def Decodes (e : Fe) : Prop := (decRoot e).1 = true ∧ isNegative (decX e * decY e) = false ∧ decY e ≠ 0

theorem decodes_iff_decPoint (e : Fe) : Decodes e ↔
    (decRoot e).1 = true ∧ ((decPoint e).x * (decPoint e).y).val % 2 = 0 ∧ (decPoint e).y ≠ 0 := by
  rw [Decodes, decPoint_x, decPoint_y, isNegative_eq_false_iff]

theorem ristrettoDecodeField_eq (e : Fe) : ristrettoDecodeField e =
    if !(decRoot e).1 || isNegative (decX e * decY e) || decY e == 0 then none else some (decPoint e) := rfl

theorem ristrettoDecodeField_of_decodes {e : Fe} (h : Decodes e) : ristrettoDecodeField e = some (decPoint e) := by
  obtain ⟨hroot, hsign, hy⟩ := h
  rw [ristrettoDecodeField_eq, if_neg (by simp [hroot, hsign, hy])]

theorem ristrettoDecodeField_of_not_decodes {e : Fe} (h : ¬Decodes e) : ristrettoDecodeField e = none := by
  rw [ristrettoDecodeField_eq, if_pos]
  by_contra hcond
  refine h ?_
  simpa [Decodes, and_assoc] using hcond

theorem ristrettoDecode_of_val {bs : List Byte} {e : Fe} (h : e.val = leInt bs) (he : isNegative e = false) :
    ristrettoDecode bs = ristrettoDecodeField e := by
  have hfe : Fin.ofNat fieldPrime (leInt bs) = e := by rw [← h, Fin.ofNat_val_eq_self]
  rw [ristrettoDecode, if_neg (by have := e.isLt; omega), hfe, if_neg (by simp [he])]

theorem ristrettoDecode_of_rejected {bs : List Byte} (h : fieldPrime ≤ leInt bs ∨ leInt bs % 2 = 1) :
    ristrettoDecode bs = none := by
  rw [ristrettoDecode]
  by_cases hp : fieldPrime ≤ leInt bs
  · exact if_pos hp
  · have hval : (Fin.ofNat fieldPrime (leInt bs)).val = leInt bs := Nat.mod_eq_of_lt (by omega)
    rw [if_neg hp, if_pos (isNegative_iff.2 (by rw [hval]; exact h.resolve_left hp))]

/-- What a decoded point is, and the value it is decoded from. -/
theorem exists_of_ristrettoDecode {bs : List Byte} {P : Pt} (h : ristrettoDecode bs = some P) :
    ∃ e : Fe, Decodes e ∧ P = decPoint e := by
  have hfield : ∃ e : Fe, ristrettoDecodeField e = some P := by
    rw [ristrettoDecode] at h
    split at h
    · exact absurd h (by simp)
    · split at h
      · exact absurd h (by simp)
      · exact ⟨_, h⟩
  obtain ⟨e, he⟩ := hfield
  by_cases hdec : Decodes e
  · rw [ristrettoDecodeField_of_decodes hdec] at he
    exact ⟨e, hdec, (Option.some.inj he).symm⟩
  · rw [ristrettoDecodeField_of_not_decodes hdec] at he
    exact absurd he (by simp)

/-! ### The equations of the decoded point -/

theorem inField_decU2 (e : Fe) : inField (decU2 e) = 1 + inField e ^ 2 := by
  rw [decU2, inField_add, inField_one, inField_mul, pow_two]

theorem inField_decV (e : Fe) : inField (decV e) =
    -(inField curveD * (1 - inField e ^ 2) ^ 2) - (1 + inField e ^ 2) ^ 2 := by
  simp only [decV, inField_sub, inField_neg, inField_mul, inField_one, inField_decU2]
  ring

/-- An inverse square root that the flag vouches for. -/
theorem invSqrt_of_flag {a : Fe} (h : (sqrtRatioM1 1 a).1 = true) : inField a * inField (sqrtRatioM1 1 a).2 ^ 2 = 1 := by
  by_cases ha : a = 0
  · rw [ha, sqrtRatioM1_zero_right one_ne_zero_fe] at h
    exact absurd h Bool.false_ne_true
  · rw [sqrtRatioM1_root one_ne_zero_fe ha, if_pos h, inField_one]

/-- A nonzero square has an inverse square root, and the flag says so. -/
theorem invSqrt_flag_of_isSquare {a : Fe} (ha : inField a ≠ 0) (hsq : IsSquare (inField a)) :
    (sqrtRatioM1 1 a).1 = true := by
  obtain ⟨w, hw⟩ := hsq
  obtain ⟨y, rfl⟩ := inField_surjective w
  refine (invSqrt_flag_iff (inField_eq_zero_iff.not.1 ha)).2 ⟨y, inField_inj.1 ?_⟩
  rw [inField_mul, hw]

theorem decRoot_sq {e : Fe} (h : (decRoot e).1 = true) :
    inField (decV e) * (1 + inField e ^ 2) ^ 2 * inField (decRoot e).2 ^ 2 = 1 := by
  have hroot := invSqrt_of_flag h
  rw [← decRoot, inField_mul, inField_mul, inField_decU2, ← pow_two] at hroot
  exact hroot

theorem decV_ne_zero {e : Fe} (h : (decRoot e).1 = true) : inField (decV e) ≠ 0 := by
  have := fieldPrime_fact
  intro hv
  have hroot := decRoot_sq h
  simp [hv] at hroot

theorem decU2_ne_zero {e : Fe} (h : (decRoot e).1 = true) : 1 + inField e ^ 2 ≠ 0 := by
  have := fieldPrime_fact
  intro hu
  have hroot := decRoot_sq h
  simp [hu] at hroot

theorem inField_decX_sq (e : Fe) :
    inField (decX e) ^ 2 = 4 * inField e ^ 2 * inField (decRoot e).2 ^ 2 * (1 + inField e ^ 2) ^ 2 := by
  rw [decX, inField_feAbs_sq, inField_mul, decDenX, inField_mul, inField_decU2, inField_two_mul]
  ring

theorem inField_decX_sq_mul {e : Fe} (h : (decRoot e).1 = true) :
    inField (decX e) ^ 2 * inField (decV e) = 4 * inField e ^ 2 := by
  rw [inField_decX_sq]
  linear_combination 4 * inField e ^ 2 * decRoot_sq h

theorem inField_decY_mul {e : Fe} (h : (decRoot e).1 = true) :
    inField (decY e) * (1 + inField e ^ 2) = 1 - inField e ^ 2 := by
  simp only [decY, decDenX, inField_mul, inField_sub, inField_one, inField_decU2]
  linear_combination (1 - inField e ^ 2) * decRoot_sq h

theorem onCurve_decoded {e : Fe} (h : (decRoot e).1 = true) : onCurve (decPoint e) = true := by
  have := fieldPrime_fact
  rw [onCurve_iff_on, decPoint_x, decPoint_y]
  exact (on_decode (inField_decV e) (decV_ne_zero h) (decU2_ne_zero h) (inField_decX_sq_mul h) (inField_decY_mul h))

theorem inTwoE_decoded {e : Fe} (h : (decRoot e).1 = true) : InTwoE (decPoint e) := by
  rw [inTwoE_iff_isSquare, decPoint_y]
  exact ⟨onCurve_decoded h, isSquare_one_sub_of_quotient (decU2_ne_zero h) (inField_decY_mul h)⟩

theorem inTwoE_of_ristrettoDecode {bs : List Byte} {P : Pt} (h : ristrettoDecode bs = some P) : InTwoE P := by
  obtain ⟨e, ⟨hroot, -, -⟩, rfl⟩ := exists_of_ristrettoDecode h
  exact inTwoE_decoded hroot

/-! ### GUNPACK -/

theorem exec_gunpack (s : State) (v : Bool) (rd : GReg) (rc : BReg) {slot : BitVec 8} (h : slot.toNat ≤ 63) :
    exec (.gunpack v rd rc slot) s = .next ((s.setG rd (decodedReg (ristrettoDecode (s.dmemRead slot 1)))).setB rc
      (ristrettoDecode (s.dmemRead slot 1)).isSome).retire := by
  show execGunpack v rd rc slot s = _
  rw [execGunpack, slotInRange_of_le h, checkRange_true, complete]

/-- x is the absolute value of 2*e*den_x when it is the nonnegative one of that and its negation. -/
theorem eq_decX {e x : Fe} (hx : x.val % 2 = 0) (h : x = 2 * e * decDenX e ∨ x = -(2 * e * decDenX e)) : x = decX e := by
  have htwo : inField ((e + e) * decDenX e) = inField (2 * e * decDenX e) := by
    rw [inField_mul, inField_two_mul, inField_mul, inField_mul, inField_two]
  have hsq : inField ((e + e) * decDenX e) ^ 2 = inField x ^ 2 := by
    rw [htwo]
    rcases h with h | h
    · rw [h]
    · rw [h, inField_neg, neg_sq]
  exact (feAbs_eq_of_sq_eq (isNegative_eq_false_iff.2 hx) hsq).symm

theorem ristrettoDecode_of_leInt_zero {bs : List Byte} (h : leInt bs = 0) : ristrettoDecode bs = some ⟨0, 1⟩ := by
  rw [ristrettoDecode_of_val (e := 0) h.symm (by decide)]
  decide +kernel

theorem leInt_dmemRead_of_zeros {s : State} {slot : BitVec 8}
    (h : ∀ j, j < 32 → s.dmemByte (32 * slot.toNat + j) = 0) : leInt (s.dmemRead slot 1) = 0 := by
  rw [State.dmemRead, leInt_dmemBytes]
  refine Finset.sum_eq_zero fun j hj => ?_
  rw [slotBase, h j (Finset.mem_range.1 hj)]
  simp

/-- Settles O42: the five clauses are what `ristrettoDecode` gives for the bytes, and `onCurve_decoded`. -/
theorem groupUnpackDecodesOrPoisons : Obligations.GroupUnpackDecodesOrPoisons := by
  intro s v rd rc slot hslot
  refine ⟨_, exec_gunpack s v rd rc hslot, onlyGB_setG_setB_retire .., ?point, ?rejected, ?decoded, ?zeros⟩
  case point =>
    cases hdec : ristrettoDecode (s.dmemRead slot 1) with
    | none => exact .inr (onlyGB_setG_setB_retire ..)
    | some P =>
      obtain ⟨e, he, rfl⟩ := exists_of_ristrettoDecode hdec
      obtain ⟨hroot, hsign, hy⟩ := (decodes_iff_decPoint e).1 he
      exact .inl ⟨decPoint e, onlyGB_setG_setB_retire .., onCurve_decoded hroot, hy, hsign⟩
  case rejected =>
    intro hreject
    rw [ristrettoDecode_of_rejected hreject]
    exact onlyGB_setG_setB_retire ..
  case decoded =>
    intro e x y hval heven _ _ _ _ _ hx hxeq hy
    have hy' : y = decY e := by
      unfold decY decDenX decRoot decV decU2
      exact hy
    have hpoint : (⟨x, y⟩ : Pt) = decPoint e := by rw [eq_decX hx hxeq, hy', decPoint]
    have hiff := decodes_iff_decPoint e
    rw [← hpoint] at hiff
    rw [ristrettoDecode_of_val hval (isNegative_eq_false_iff.2 heven)]
    constructor
    · intro htests
      rw [ristrettoDecodeField_of_decodes (hiff.2 htests), ← hpoint]
      exact onlyGB_setG_setB_retire ..
    · intro hfail
      rw [ristrettoDecodeField_of_not_decodes fun hdec => hfail (hiff.1 hdec)]
      exact onlyGB_setG_setB_retire ..
  case zeros =>
    intro hzeros
    rw [ristrettoDecode_of_leInt_zero (leInt_dmemRead_of_zeros hzeros)]
    exact onlyGB_setG_setB_retire ..

end Sys2Proof.Machine
end

section
/-! The points that registers hold: a property of points that every command's group function keeps is kept by every step.
The curve and 2E are such properties (43_group.md R326, R330, R348). -/

-- One theorem after another: many at once exceed the memory that check.sh allows for threads.
set_option Elab.async false

namespace Sys2Proof.Machine

open Safety

/-- The property holds of what every group command can compute from points it holds of. -/
structure GroupClosed (Q : Pt → Prop) : Prop where
  neutral : Q neutral
  base : Q basePoint
  add : ∀ P R, Q P → Q R → Q (ptAdd P R)
  neg : ∀ P, Q P → Q (ptNeg P)
  mul : ∀ (k : Nat) (P : Pt), Q P → Q (ptMul k P)
  decode : ∀ (bs : List Byte) (P : Pt), ristrettoDecode bs = some P → Q P
  elligator : ∀ t, Q (elligator t)

/-- Every point a register holds has the property. -/
def PointRegs (Q : Pt → Prop) (s : State) : Prop := ∀ (i : GReg) (P : Pt), s.g[i] = .point P → Q P

section
variable {Q : Pt → Prop} {s t : State}

theorem pointRegs_of_g_eq (h : t.g = s.g) (hs : PointRegs Q s) : PointRegs Q t := by
  intro i P
  rw [h]
  exact hs i P

theorem pointRegs_of_reset (h : t.g = State.reset.g) : PointRegs Q t := by
  intro i P hP
  rw [h, reset_g] at hP
  cases hP

/-- Writing a register keeps the property when a point written has it. -/
theorem PointRegs.setG (hs : PointRegs Q s) {rd : GReg} {r : PointReg} (hr : ∀ P, r = .point P → Q P) :
    PointRegs Q (s.setG rd r) := by
  intro i P hP
  obtain ⟨hsame, hother⟩ := wrote_set s.g rd r
  rw [setG_g] at hP
  by_cases hi : i = rd
  · subst hi
    exact hr P (hsame ▸ hP)
  · exact hs i P (by rwa [← hother i hi])

theorem PointRegs.setPoint (hs : PointRegs Q s) (rd : GReg) {P : Pt} (hP : Q P) : PointRegs Q (s.setG rd (.point P)) :=
  hs.setG fun _ h => PointReg.point.inj h ▸ hP

/-! ### Commands -/

theorem point_of_readG_value {i : GReg} {P : Pt} (h : s.readG i = .value P) : s.g[i] = .point P := by
  rw [State.readG] at h
  cases hg : s.g[i] <;> simp_all [Src.ofPoint]

theorem PointRegs.of_readG (hs : PointRegs Q s) {i : GReg} {P : Pt} (h : s.readG i = .value P) : Q P :=
  hs i P (point_of_readG_value h)

/-- The points of the pairs that GMSM reads have the property. -/
theorem PointRegs.of_readTerms (hs : PointRegs Q s) (n : Nat) {a b : Nat} {ts : List (Pt × Scalar)}
    (h : s.readTerms a b n = .value ts) : ∀ p ∈ ts, Q p.1 := by
  induction n generalizing a b ts with
  | zero =>
    cases h
    simp
  | succ n ih =>
    rw [readTerms_succ, Src.map_eq_value] at h
    obtain ⟨⟨⟨P, k⟩, us⟩, hread, rfl⟩ := h
    obtain ⟨hpair, hrest⟩ := both_eq_value.1 hread
    obtain ⟨hP, -⟩ := both_eq_value.1 hpair
    rintro p (_ | ⟨_, hp⟩)
    · exact hs.of_readG hP
    · exact ih hrest p hp

theorem GroupClosed.mulSum (hQ : GroupClosed Q) {ts : List (Pt × Scalar)} (h : ∀ p ∈ ts, Q p.1) : Q (ptMulSum ts) := by
  induction ts with
  | nil => exact hQ.neutral
  | cons p ts ih =>
    have hp := hQ.mul p.2.val p.1 (h p List.mem_cons_self)
    cases ts with
    | nil => exact hp
    | cons q ts => exact hQ.add _ _ hp (ih fun r hr => h r (List.mem_cons_of_mem p hr))

theorem GroupClosed.decodedReg (hQ : GroupClosed Q) (bs : List Byte) :
    ∀ P, decodedReg (ristrettoDecode bs) = .point P → Q P := by
  intro P h
  cases hdec : ristrettoDecode bs with
  | none =>
    rw [hdec] at h
    cases h
  | some R =>
    rw [hdec] at h
    cases h
    exact hQ.decode bs _ hdec

/-- A command with source reads keeps the property when its effect on the values read does. -/
theorem PointRegs.withSources {α : Type} {src : Src α} {effect : α → State} (hs : PointRegs Q s)
    (h : withSources src s effect = .next t) (heffect : ∀ a, src = .value a → PointRegs Q (effect a)) : PointRegs Q t := by
  obtain ⟨-, hres⟩ | ⟨-, hres⟩ | ⟨a, ha, hres⟩ := withSources_cases src s effect
  all_goals rw [hres] at h; cases h
  · exact hs
  · exact hs
  · exact pointRegs_of_g_eq (retire_g _) (heffect a ha)

/-- A command that names a point register as its destination writes a point it computes from those it reads. -/
theorem GroupClosed.exec_of_destG (hQ : GroupClosed Q) {i : Instr} {rd : GReg} (hi : destG i = some rd)
    (h : exec i s = .next t) (hs : PointRegs Q s) : PointRegs Q t := by
  cases i
  case gunpack v rd rc slot =>
    obtain ⟨-, hres⟩ | ⟨-, hres⟩ := checkRange_cases (slotInRange slot) s (complete ((s.setG rd
      (Machine.decodedReg (ristrettoDecode (s.dmemRead slot 1)))).setB rc (ristrettoDecode (s.dmemRead slot 1)).isSome))
    all_goals cases hres.symm.trans h
    · exact hs
    · exact pointRegs_of_g_eq (retire_g _) (hs.setG (hQ.decodedReg _))
  case gadd v rd ra rb =>
    refine hs.withSources h fun p hp => ?_
    obtain ⟨hP, hR⟩ := both_eq_value.1 hp
    exact hs.setPoint rd (hQ.add _ _ (hs.of_readG hP) (hs.of_readG hR))
  case gdbl v rd ra =>
    exact hs.withSources h fun P hP => hs.setPoint rd (hQ.add _ _ (hs.of_readG hP) (hs.of_readG hP))
  case gneg v rd ra =>
    exact hs.withSources h fun P hP => hs.setPoint rd (hQ.neg _ (hs.of_readG hP))
  case gsmul v rd ra rb =>
    refine hs.withSources h fun p hp => ?_
    obtain ⟨hP, -⟩ := both_eq_value.1 hp
    exact hs.setPoint rd (hQ.mul _ _ (hs.of_readG hP))
  case gsmulb v rd rb =>
    exact hs.withSources h fun k _ => hs.setPoint rd (hQ.mul k.val _ hQ.base)
  case gmsm v rd ra rb n =>
    obtain ⟨-, hres⟩ | ⟨-, hres⟩ := checkRange_cases (countInRange ra rb n) s
      (Machine.withSources (s.readTerms ra.val rb.val n.toNat) s fun ts => s.setG rd (.point (ptMulSum ts)))
    · cases hres.symm.trans h
      exact hs
    · exact hs.withSources (hres.symm.trans h) fun ts hts => hs.setPoint rd (hQ.mulSum (hs.of_readTerms _ hts))
  case gneutral v rd =>
    cases h
    exact pointRegs_of_g_eq (retire_g _) (hs.setPoint rd hQ.neutral)
  case gbase v rd =>
    cases h
    exact pointRegs_of_g_eq (retire_g _) (hs.setPoint rd hQ.base)
  case gelligator v rd ra =>
    exact hs.withSources h fun a _ => hs.setPoint rd (hQ.elligator a)
  case gcmov v rd ra rc =>
    refine hs.withSources h fun p hp => ?_
    obtain ⟨hD, hP⟩ := both_eq_value.1 hp
    refine hs.setPoint rd ?_
    rw [ctSelect]
    split
    · exact hs.of_readG hP
    · exact hs.of_readG hD
  all_goals exact absurd hi (by simp [destG])

/-! ### Steps -/

theorem GroupClosed.stable (hQ : GroupClosed Q) : Stable (PointRegs Q) where
  record _ _ _ _ _ h := h
  errorStop _ _ _ h := h
  retireHalt _ _ h := h
  effect i e s _ _ hnamed hexec h := by
    cases hdest : destG i with
    | some rd => exact hQ.exec_of_destG hdest hexec h
    | none =>
      intro j P hP
      rw [retire_g, Effect.apply_g_of_dest_ne s hnamed (by simp [hdest])] at hP
      exact h j P hP
  write s t hw h := by
    cases hw with
    | softReset => exact pointRegs_of_reset rfl
    | _ => exact h
  hardReset _ _ := pointRegs_of_reset rfl

end

theorem groupClosed_onCurve : GroupClosed fun P => onCurve P = true where
  neutral := onCurve_neutral
  base := onCurve_of_inTwoE inTwoE_basePoint
  add _ _ := onCurve_ptAdd
  neg P h := (onCurve_ptNeg P).trans h
  mul k _ h := onCurve_ptMul h k
  decode _ _ h := onCurve_of_inTwoE (inTwoE_of_ristrettoDecode h)
  elligator := onCurve_elligator

theorem groupClosed_inTwoE : GroupClosed InTwoE where
  neutral := inTwoE_neutral
  base := inTwoE_basePoint
  add _ _ := inTwoE_ptAdd
  neg _ := inTwoE_ptNeg
  mul k _ h := inTwoE_ptMul h k
  decode _ _ := inTwoE_of_ristrettoDecode
  elligator := inTwoE_elligator

/-- Settles O18: every group function lands on the curve. -/
theorem everyStepKeepsPointsOnCurve : Obligations.EveryStepKeepsPointsOnCurve :=
  fun _ _ h hstep => groupClosed_onCurve.stable.step hstep h

/-- Settles O60: every group function lands in 2E. -/
theorem everyStepKeepsPointsInTwoE : Obligations.EveryStepKeepsPointsInTwoE :=
  fun _ _ h hstep => groupClosed_inTwoE.stable.step hstep h

end Sys2Proof.Machine
end

section
/-! The Ristretto round trip. The encoding of a point of 2E is read off one of the points that `geq` calls equal to it, the
representative with x and x*y nonnegative, and the decoding gives that point back (43_group.md R316, R317, R346). -/

-- One theorem after another: many at once exceed the memory that check.sh allows for threads.
set_option Elab.async false

namespace Sys2Proof.Edwards

variable {K : Type*} [Field K] {d i c k s v x y : K}

/-- Turning a point by SQRT_M1 keeps it on the curve. -/
theorem on_rotate (hi : i ^ 2 = -1) (h : On d x y) : On d (y * i) (x * i) := by
  rw [On] at *
  linear_combination h + (x ^ 2 - y ^ 2 - d * x ^ 2 * y ^ 2 * (i ^ 2 - 1)) * hi

/-- Negating both coordinates keeps a point on the curve. -/
theorem on_neg_neg (h : On d x y) : On d (-x) (-y) := by
  rw [On] at *
  linear_combination h

/-- The factor that R316 uses for a turned point is an inverse root of 1 - y^2 at the turned point. -/
theorem enchanted_sq (hc : c ^ 2 * (-1 - d) = 1) (hi : i ^ 2 = -1) (h : On d x y)
    (hk : k ^ 2 * (1 - y ^ 2) * (x * y) ^ 2 = 1) : (k * (1 - y ^ 2) * c) ^ 2 * (1 - (x * i) ^ 2) = 1 := by
  rw [On] at h
  linear_combination k ^ 2 * (1 - y ^ 2) ^ 2 * c ^ 2 * (-x ^ 2 * hi) + k ^ 2 * (1 - y ^ 2) * c ^ 2 * -h +
    k ^ 2 * (1 - y ^ 2) * x ^ 2 * y ^ 2 * hc + hk

/-- v of the decoding times x^2 is 4*s^2 when s is read off y. -/
theorem decode_v (h : On d x y) (hs : s ^ 2 * (1 + y) = 1 - y) (hy : 1 + y ≠ 0)
    (hv : v = -(d * (1 - s ^ 2) ^ 2) - (1 + s ^ 2) ^ 2) : v * x ^ 2 = 4 * s ^ 2 := by
  rw [On] at h
  have hplus : (1 + s ^ 2) * (1 + y) = 2 := by linear_combination hs
  have hminus : (1 - s ^ 2) * (1 + y) = 2 * y := by linear_combination -hs
  refine mul_right_cancel₀ (pow_ne_zero 2 hy) ?_
  have hvy : v * (1 + y) ^ 2 = -4 * (d * y ^ 2 + 1) := by
    rw [hv]
    linear_combination -d * ((1 - s ^ 2) * (1 + y) + 2 * y) * hminus - ((1 + s ^ 2) * (1 + y) + 2) * hplus
  linear_combination x ^ 2 * hvy + 4 * h - 4 * (1 + y) * hs

end Sys2Proof.Edwards

namespace Sys2Proof.Machine

open Safety Edwards

/-! ### The values the encoding computes -/

/-- u1 of R316, with Z = 1. -/
def encU1 (P : Pt) : Fe := (1 + P.y) * (1 - P.y)

/-- u2 of R316. -/
def encU2 (P : Pt) : Fe := P.x * P.y

/-- invsqrt of R316. -/
def encRoot (P : Pt) : Fe := (sqrtRatioM1 1 (encU1 P * (encU2 P * encU2 P))).2

/-- z_inv of R316. -/
def encZInv (P : Pt) : Fe := encRoot P * encU1 P * (encRoot P * encU2 P) * encU2 P

/-- den_inv of R316, by whether the point is turned. -/
def encDenInv (turn : Bool) (P : Pt) : Fe :=
  ctSelect turn (encRoot P * encU1 P * invsqrtAMinusD) (encRoot P * encU2 P)

/-- INVSQRT_A_MINUS_D is an inverse root of a - D (43_group.md R311). -/
theorem inField_invsqrtAMinusD_sq : inField invsqrtAMinusD ^ 2 * (-1 - inField curveD) = 1 := by
  have h : invsqrtAMinusD * invsqrtAMinusD * (-1 - curveD) = 1 := by decide +kernel
  rw [pow_two, ← inField_mul, ← inField_one, ← inField_neg, ← inField_sub, ← inField_mul, h]

/-- The point turned by SQRT_M1, or not (43_group.md R316). -/
def turned (turn : Bool) (P : Pt) : Pt := ⟨ctSelect turn (P.y * sqrtM1) P.x, ctSelect turn (P.x * sqrtM1) P.y⟩

theorem ristrettoEncode_eq (P : Pt) : ristrettoEncode P =
    fePack (feAbs (encDenInv (isNegative (encU2 P * encZInv P)) P *
      (1 - ctSelect (isNegative ((turned (isNegative (encU2 P * encZInv P)) P).x * encZInv P))
        (-(turned (isNegative (encU2 P * encZInv P)) P).y) (turned (isNegative (encU2 P * encZInv P)) P).y))) := by
  simp only [ristrettoEncode, ristrettoEncodeExt, extOfPt, turned, encDenInv, encZInv, encRoot, encU1, encU2]

/-! ### An x or y of 0 -/

/-- The points with x = 0 or y = 0 encode to 32 zero bytes. -/
theorem ristrettoEncode_of_mul_eq_zero {P : Pt} (h : P.x * P.y = 0) : ristrettoEncode P = fePack 0 := by
  have hu2 : encU2 P = 0 := h
  have hroot : encRoot P = 0 := by
    rw [encRoot, hu2, mul_zero, mul_zero, sqrtRatioM1_zero_right one_ne_zero_fe]
  have hden (turn : Bool) : encDenInv turn P = 0 := by
    rw [encDenInv, hroot, zero_mul, zero_mul, zero_mul, ctSelect, ite_self]
  rw [ristrettoEncode_eq, hden, zero_mul]
  decide +kernel

/-! ### The representative that is encoded -/

/-- The representative with x and x*y nonnegative (43_group.md R316): the point turned when x*y is negative, then negated
when its x is. -/
def representative (P : Pt) : Pt :=
  let R := turned (isNegative (P.x * P.y)) P
  ctSelect (isNegative R.x) ⟨-R.x, -R.y⟩ R

theorem turned_false (P : Pt) : turned false P = P := by
  rw [turned, ctSelect, if_neg Bool.false_ne_true, ctSelect, if_neg Bool.false_ne_true]

theorem turned_true (P : Pt) : turned true P = ⟨P.y * sqrtM1, P.x * sqrtM1⟩ := by
  rw [turned, ctSelect, if_pos rfl, ctSelect, if_pos rfl]

/-- The y of the representative, as R316 selects it. -/
theorem representative_y (P : Pt) : (representative P).y =
    ctSelect (isNegative (turned (isNegative (P.x * P.y)) P).x) (-(turned (isNegative (P.x * P.y)) P).y)
      (turned (isNegative (P.x * P.y)) P).y := by
  rw [representative, ctSelect, ctSelect]
  split <;> rfl

theorem representative_x (P : Pt) : (representative P).x = feAbs (turned (isNegative (P.x * P.y)) P).x := by
  rw [representative, ctSelect, feAbs]
  split <;> rfl

/-- Turning negates x*y. -/
theorem turned_mul (P : Pt) : (turned (isNegative (P.x * P.y)) P).x * (turned (isNegative (P.x * P.y)) P).y =
    feAbs (P.x * P.y) := by
  cases h : isNegative (P.x * P.y) with
  | false => rw [turned_false, feAbs_of_nonneg h]
  | true =>
    rw [turned_true, feAbs_of_isNegative h, ← inField_inj]
    simp only [inField_mul, inField_neg]
    linear_combination inField P.x * inField P.y * inField_sqrtM1_sq

theorem representative_mul (P : Pt) : (representative P).x * (representative P).y = feAbs (P.x * P.y) := by
  rw [← turned_mul, representative, ctSelect]
  split
  · exact neg_mul_neg _ _
  · rfl

theorem onCurve_turned {P : Pt} (hP : onCurve P = true) (turn : Bool) : onCurve (turned turn P) = true := by
  cases turn with
  | false => rwa [turned_false]
  | true =>
    rw [turned_true, onCurve_iff_on, inField_mul, inField_mul]
    have := fieldPrime_fact
    exact on_rotate inField_sqrtM1_sq ((onCurve_iff_on P).1 hP)

theorem onCurve_representative {P : Pt} (hP : onCurve P = true) : onCurve (representative P) = true := by
  have hR := onCurve_turned hP (isNegative (P.x * P.y))
  rw [representative, ctSelect]
  split
  · rw [onCurve_iff_on, inField_neg, inField_neg]
    have := fieldPrime_fact
    exact on_neg_neg ((onCurve_iff_on _).1 hR)
  · exact hR

/-- `geq` calls a point and its representative equal: they differ by the sign or by a turn (43_group.md R315). -/
theorem geq_representative (P : Pt) : P.x * (representative P).y = (representative P).x * P.y ∨
    P.x * (representative P).x = P.y * (representative P).y := by
  simp only [← inField_inj, inField_mul]
  rw [representative, ctSelect]
  cases isNegative (P.x * P.y) with
  | false =>
    rw [turned_false]
    refine .inl ?_
    split
    · simp only [inField_neg]
      ring
    · ring
  | true =>
    rw [turned_true]
    refine .inr ?_
    split
    · simp only [inField_neg, inField_mul]
      ring
    · simp only [inField_mul]
      ring

/-- A point with x and x*y nonnegative is its own representative. -/
theorem representative_eq_self {P : Pt} (hx : isNegative P.x = false) (hxy : isNegative (P.x * P.y) = false) :
    representative P = P := by
  rw [representative, hxy, turned_false, hx, ctSelect, if_neg Bool.false_ne_true]

/-! ### The encoding of a point of 2E -/

theorem inField_encU1 (P : Pt) : inField (encU1 P) = 1 - inField P.y ^ 2 := by
  rw [encU1, inField_mul, inField_add, inField_sub, inField_one]
  ring

theorem inField_encU2 (P : Pt) : inField (encU2 P) = inField P.x * inField P.y := by
  rw [encU2, inField_mul]

theorem mul_inField_ne_zero {P : Pt} (hxy : P.x * P.y ≠ 0) : inField P.x * inField P.y ≠ 0 := by
  rwa [← inField_mul, Ne, inField_eq_zero_iff]

/-- Only x = 0 goes with y = 1 or y = -1. -/
theorem x_eq_zero_of_y_sq_eq_one {P : Pt} (hP : onCurve P = true) (hy : inField P.y ^ 2 = 1) : inField P.x = 0 := by
  have := fieldPrime_fact
  have hcurve := (onCurve_iff P).1 hP
  have hx : inField P.x ^ 2 * (1 + inField curveD) = 0 := by
    linear_combination -hcurve + (1 - inField curveD * inField P.x ^ 2) * hy
  have hd := add_one_ne_zero inField_sqrtM1_sq not_isSquare_inField_curveD
  exact pow_eq_zero_iff two_ne_zero |>.1 ((mul_eq_zero.1 hx).resolve_right hd)

section
variable {P : Pt} (hP : InTwoE P) (hxy : P.x * P.y ≠ 0)
include hP hxy

/-- y is not 1 or -1 when x*y is nonzero. -/
theorem one_sub_sq_ne_zero : 1 - inField P.y ^ 2 ≠ 0 := by
  intro hy
  have hx := x_eq_zero_of_y_sq_eq_one (onCurve_of_inTwoE hP) (sub_eq_zero.1 hy).symm
  exact mul_inField_ne_zero hxy (by rw [hx, zero_mul])

/-- The root exists, as 1 - y^2 is a square on 2E. -/
theorem encRoot_sq : inField (encRoot P) ^ 2 * (1 - inField P.y ^ 2) * (inField P.x * inField P.y) ^ 2 = 1 := by
  have := fieldPrime_fact
  have hval : inField (encU1 P * (encU2 P * encU2 P)) = (1 - inField P.y ^ 2) * (inField P.x * inField P.y) ^ 2 := by
    rw [inField_mul, inField_mul, inField_encU1, inField_encU2, pow_two (_ * _)]
  have hne : inField (encU1 P * (encU2 P * encU2 P)) ≠ 0 := by
    rw [hval]
    exact mul_ne_zero (one_sub_sq_ne_zero hP hxy) (pow_ne_zero 2 (mul_inField_ne_zero hxy))
  have hsq : IsSquare (inField (encU1 P * (encU2 P * encU2 P))) := by
    rw [hval]
    exact ((inTwoE_iff_isSquare P).1 hP).2.mul (IsSquare.sq _)
  have hroot := invSqrt_of_flag (invSqrt_flag_of_isSquare hne hsq)
  rw [← encRoot, hval] at hroot
  linear_combination hroot

theorem encZInv_eq_one : encZInv P = 1 := by
  rw [← inField_inj, encZInv]
  simp only [inField_mul, inField_encU1, inField_encU2, inField_one]
  linear_combination encRoot_sq hP hxy

/-- With Z = 1 and z_inv = 1, the encoding is that of the representative. -/
theorem ristrettoEncode_eq_representative : ristrettoEncode P =
    fePack (feAbs (encDenInv (isNegative (P.x * P.y)) P * (1 - (representative P).y))) := by
  rw [ristrettoEncode_eq, encZInv_eq_one hP hxy, mul_one, mul_one, encU2, representative_y]

/-- den_inv is an inverse root of 1 - y^2, at the turned point. -/
theorem encDenInv_sq (turn : Bool) :
    inField (encDenInv turn P) ^ 2 * (1 - inField (turned turn P).y ^ 2) = 1 := by
  have hroot := encRoot_sq hP hxy
  cases turn with
  | false =>
    rw [turned_false, encDenInv, ctSelect, if_neg Bool.false_ne_true, inField_mul, inField_encU2]
    linear_combination hroot
  | true =>
    rw [turned_true, encDenInv, ctSelect, if_pos rfl, inField_mul, inField_mul, inField_mul, inField_encU1]
    have := fieldPrime_fact
    exact enchanted_sq inField_invsqrtAMinusD_sq inField_sqrtM1_sq ((onCurve_iff_on P).1 (onCurve_of_inTwoE hP)) hroot

end

theorem inField_representative_y_sq (P : Pt) :
    inField (representative P).y ^ 2 = inField (turned (isNegative (P.x * P.y)) P).y ^ 2 := by
  rw [representative_y, ctSelect]
  split
  · rw [inField_neg, neg_sq]
  · rfl

/-- R is the representative whose encoding is s. -/
structure EncodesTo (R : Pt) (s : Fe) : Prop where
  curve : onCurve R = true
  x_nonneg : isNegative R.x = false
  xy_nonneg : isNegative (R.x * R.y) = false
  xy_ne_zero : R.x * R.y ≠ 0
  s_nonneg : isNegative s = false
  s_sq : inField s ^ 2 * (1 + inField R.y) = 1 - inField R.y

/-- A point of 2E with x and y nonzero encodes to the s of its representative. -/
theorem exists_encodesTo {P : Pt} (hP : InTwoE P) (hxy : P.x * P.y ≠ 0) :
    ∃ s, ristrettoEncode P = fePack s ∧ EncodesTo (representative P) s := by
  have := fieldPrime_fact
  refine ⟨_, ristrettoEncode_eq_representative hP hxy, ?_⟩
  have hden := encDenInv_sq hP hxy (isNegative (P.x * P.y))
  rw [← inField_representative_y_sq] at hden
  constructor
  case curve => exact onCurve_representative (onCurve_of_inTwoE hP)
  case x_nonneg => rw [representative_x, isNegative_feAbs]
  case xy_nonneg => rw [representative_mul, isNegative_feAbs]
  case xy_ne_zero =>
    rw [representative_mul, Ne, ← inField_eq_zero_iff, ← pow_eq_zero_iff two_ne_zero, inField_feAbs_sq, inField_mul]
    exact pow_ne_zero 2 (mul_inField_ne_zero hxy)
  case s_nonneg => rw [isNegative_feAbs]
  case s_sq =>
    rw [inField_feAbs_sq, inField_mul, inField_sub, inField_one]
    linear_combination (1 - inField (representative P).y) * hden

section
variable {R : Pt} {s : Fe} (h : EncodesTo R s)
include h

theorem EncodesTo.one_add_y_ne_zero : 1 + inField R.y ≠ 0 := by
  intro hy
  have hs := h.s_sq
  rw [hy, mul_zero] at hs
  exact two_ne_zero_inField (by linear_combination hy - hs)

theorem EncodesTo.decV_mul : inField (decV s) * inField R.x ^ 2 = 4 * inField s ^ 2 := by
  have := fieldPrime_fact
  exact decode_v ((onCurve_iff_on R).1 h.curve) h.s_sq h.one_add_y_ne_zero (inField_decV s)

theorem EncodesTo.one_add_sq_mul : (1 + inField s ^ 2) * (1 + inField R.y) = 2 := by
  linear_combination h.s_sq

theorem EncodesTo.s_ne_zero : inField s ≠ 0 := by
  intro hs
  have hy := h.s_sq
  rw [hs, zero_pow two_ne_zero, zero_mul] at hy
  have hx := x_eq_zero_of_y_sq_eq_one h.curve (by linear_combination (1 + inField R.y) * hy)
  exact mul_inField_ne_zero h.xy_ne_zero (by rw [hx, zero_mul])

/-- v*u2^2 is the nonzero square (2*s*u2/x)^2. -/
theorem EncodesTo.flag : (decRoot s).1 = true := by
  have := fieldPrime_fact
  have hx : inField R.x ≠ 0 := left_ne_zero_of_mul (mul_inField_ne_zero h.xy_ne_zero)
  have hu2 : 1 + inField s ^ 2 ≠ 0 := left_ne_zero_of_mul (h.one_add_sq_mul ▸ two_ne_zero_inField)
  have hval : inField (decV s * (decU2 s * decU2 s)) = (2 * inField s * (1 + inField s ^ 2) / inField R.x) ^ 2 := by
    rw [inField_mul, inField_mul, inField_decU2, div_pow, eq_div_iff (pow_ne_zero 2 hx)]
    linear_combination (1 + inField s ^ 2) ^ 2 * h.decV_mul
  refine invSqrt_flag_of_isSquare ?_ ?_
  · rw [hval]
    exact pow_ne_zero 2 (div_ne_zero (mul_ne_zero (mul_ne_zero two_ne_zero_inField h.s_ne_zero) hu2) hx)
  · rw [hval]
    exact IsSquare.sq _

theorem EncodesTo.decX_eq : decX s = R.x := by
  have := fieldPrime_fact
  refine eq_of_sq_eq (by rw [decX, isNegative_feAbs]) h.x_nonneg (mul_right_cancel₀ (decV_ne_zero h.flag) ?_)
  rw [inField_decX_sq_mul h.flag, mul_comm (inField R.x ^ 2), h.decV_mul]

theorem EncodesTo.decY_eq : decY s = R.y := by
  have := fieldPrime_fact
  refine inField_inj.1 (mul_right_cancel₀ (decU2_ne_zero h.flag) ?_)
  rw [inField_decY_mul h.flag]
  linear_combination -h.s_sq

/-- The encoding decodes to the representative. -/
theorem EncodesTo.decode : ristrettoDecode (fePack s) = some R := by
  have hpoint : decPoint s = R := by rw [decPoint, h.decX_eq, h.decY_eq]
  have hdec : Decodes s := by
    refine ⟨h.flag, ?_, ?_⟩
    · rw [h.decX_eq, h.decY_eq]
      exact h.xy_nonneg
    · rw [h.decY_eq]
      intro hy
      exact h.xy_ne_zero (by rw [hy, mul_zero])
  rw [ristrettoDecode_of_val (leInt_fePack s).symm h.s_nonneg, ristrettoDecodeField_of_decodes hdec, hpoint]

/-- A point encodes to one s only. -/
theorem EncodesTo.unique {s' : Fe} (h' : EncodesTo R s') : s' = s := by
  have := fieldPrime_fact
  exact eq_of_sq_eq h'.s_nonneg h.s_nonneg (mul_right_cancel₀ h.one_add_y_ne_zero (h'.s_sq.trans h.s_sq.symm))

/-- Encoding the representative again gives the same bytes. -/
theorem EncodesTo.encode (hR : InTwoE R) : ristrettoEncode R = fePack s := by
  obtain ⟨s', hbytes, h'⟩ := exists_encodesTo hR h.xy_ne_zero
  rw [representative_eq_self h.x_nonneg h.xy_nonneg] at h'
  rw [hbytes, h.unique h']

end

/-! ### The round trip -/

theorem ristrettoDecode_fePack_zero : ristrettoDecode (fePack 0) = some neutral :=
  ristrettoDecode_of_leInt_zero (leInt_fePack 0)

/-- Encoding a point of 2E and decoding gives a point that `geq` calls equal, with the same encoding (43_group.md R346). -/
theorem ristretto_round_trip {P : Pt} (hP : InTwoE P) : ∃ R, ristrettoDecode (ristrettoEncode P) = some R ∧
    (P.x * R.y = R.x * P.y ∨ P.x * R.x = P.y * R.y) ∧ ristrettoEncode R = ristrettoEncode P := by
  by_cases hxy : P.x * P.y = 0
  · have hbytes := ristrettoEncode_of_mul_eq_zero hxy
    refine ⟨neutral, by rw [hbytes, ristrettoDecode_fePack_zero], ?_, ?_⟩
    · simp only [neutral_x, neutral_y, mul_one, mul_zero, zero_mul, eq_comm (a := (0 : Fe))]
      have := fieldPrime_fact
      rwa [← inField_eq_zero_iff, ← inField_eq_zero_iff, ← mul_eq_zero, ← inField_mul, inField_eq_zero_iff]
    · rw [hbytes, ristrettoEncode_of_mul_eq_zero (by rw [neutral_x, zero_mul])]
  · obtain ⟨s, hbytes, hs⟩ := exists_encodesTo hP hxy
    have hdec : ristrettoDecode (ristrettoEncode P) = some (representative P) := by rw [hbytes, hs.decode]
    exact ⟨representative P, hdec, geq_representative P, by rw [hs.encode (inTwoE_of_ristrettoDecode hdec), hbytes]⟩

theorem length_ristrettoEncode (P : Pt) : (ristrettoEncode P).length = 32 := by
  obtain ⟨e, -, he⟩ := exists_ristrettoEncode_eq P
  rw [he, length_fePack]

theorem decodedReg_some (P : Pt) : decodedReg (some P) = .point P := rfl

/-- Settles O59: the slot's bytes pass through as `ristretto_round_trip` says. -/
theorem groupRoundTrip : Obligations.GroupRoundTrip := by
  intro s v rd ra rc n m P hn hm hP hra
  obtain ⟨R, hdec, hgeq, henc⟩ := ristretto_round_trip hP
  have hread : (s.dmemWrite n (ristrettoEncode P)).retire.dmemRead n 1 = ristrettoEncode P := by
    rw [retire_dmemRead, dmemRead_dmemWrite_same _ _ (length_ristrettoEncode P)]
  have hunpack := exec_gunpack (s.dmemWrite n (ristrettoEncode P)).retire v rd rc hn
  rw [hread, hdec, decodedReg_some, Option.isSome_some] at hunpack
  refine ⟨_, _, _, R, exec_gpack v hn hra, hunpack, onlyGB_setG_setB_retire .., hgeq, exec_gpack (P := R) v hm ?_, ?_⟩
  · simp
  · refine fun j hj => dmemByte_eq_of_dmemRead_eq ?_ hj
    rw [hread, retire_dmemRead, dmemRead_dmemWrite_same _ _ (length_ristrettoEncode R), henc]

end Sys2Proof.Machine
end
